-- ==== Sys2Proof/Word.lean ====
section
/-! DEFINITION. The value types of the block: the trit (spec 10_state.md R20), the cursor (R26) and the two-bit token code (30_encoding.md R60). -/

namespace Sys2Proof

/-- A tri-state bit: one of exactly three values, so that no fourth value can be written down (R20, R21). -/
inductive Trit where
  | zero
  | one
  | invalid
deriving DecidableEq, Repr

/-- The cursor: a natural number 0 to 60 (R26); the register's values 61 to 63 are never reached and
are not expressible here (R69). -/
abbrev Cursor := Fin 61

/-- The token's code `tok[1:0]` at the input port (R60). -/
abbrev TokCode := BitVec 2

/-- The selector word: `tok[1:0]` in bits 1..0 and the cursor before the step in bits 7..2. It writes the
pair (token, cursor) that selects an operation (R64) as one number. DESIGN CHOICE (notes/assumptions/6.md):
the spec gives the pair, not this layout. -/
abbrev SelWord := BitVec 8

end Sys2Proof
end

