-- ==== Sys2Proof/Syntax.lean ====
section
/-! DEFINITION. The input alphabet (spec 30_encoding.md R60), the operations (R65), and the output alphabet (R62). -/

namespace Sys2Proof

/-- One input token: the minute-boundary marker, or a bit token carrying a trit (R10, R60, R61). -/
inductive Token where
  | mark
  | bit (v : Trit)
deriving DecidableEq, Repr

/-- One constructor per row of the selection table (R65). The operand of a bit-token operation is the trit
`v` of its token; a store also carries the index of the cell it writes, `i = cursor - base`, the one
computed quantity that plays the part of an immediate (R66). -/
inductive Instr where
  | mark
  | start (v : Trit)
  | wx (v : Trit)
  | call (v : Trit)
  | dstann (v : Trit)
  | stz1 (v : Trit)
  | stz2 (v : Trit)
  | leapann (v : Trit)
  | tmark (v : Trit)
  | smin (i : Nat) (v : Trit)
  | pmin (v : Trit)
  | shour (i : Nat) (v : Trit)
  | phour (v : Trit)
  | sday (i : Nat) (v : Trit)
  | swday (i : Nat) (v : Trit)
  | swdayl (v : Trit)
  | smon (i : Nat) (v : Trit)
  | syear (i : Nat) (v : Trit)
  | pdate (v : Trit)
  | leapnow (v : Trit)
  | overrun (v : Trit)
deriving DecidableEq, Repr

/-- The frame result: exactly six numbers (R152). `year` is the year of the century as decoded. -/
structure Frame where
  year : Nat
  month : Nat
  day : Nat
  hour : Nat
  minute : Nat
  tzOffset : Nat
deriving DecidableEq, Repr

/-- The thirteen event kinds, in the order of their codes 0 to 12 (R62). -/
inductive Event where
  | wStart
  | wx (v : Trit)
  | call (v : Trit)
  | dstAnn
  | leapAnn
  | wTmark
  | wParMin
  | wParHour
  | weekday (n : Nat)
  | wParDate
  | leapNow
  | wTz
  | frame (f : Frame)
deriving DecidableEq, Repr

/-- The three classes of events: warning, informational, frame result (R62). -/
inductive EventClass where
  | warning
  | informational
  | result
deriving DecidableEq, Repr

end Sys2Proof
end

