-- ==== Sys2Proof/Machine/State.lean ====
section
/-! DEFINITION. The state of the machine as plain data (spec 10_state.md), the reasons a step can stop, and the state after reset (R31, R32). -/

namespace Sys2Proof.Machine

/-- The six field buffers (R22). -/
inductive Buf where
  | min
  | hour
  | day
  | wday
  | mon
  | year
deriving DecidableEq, Repr

/-- The name of one storage cell (R22, R25): cell `i` of a buffer, or a timezone flag. -/
inductive Cell where
  | buf (b : Buf) (i : Nat)
  | tz1
  | tz2
deriving DecidableEq, Repr

/-- The input pins during one clock cycle of the port-level rendering (30_encoding.md R63). -/
structure PortIn where
  rst : Bool
  tokValid : Bool
  tok : TokCode
deriving DecidableEq, Repr

/-- The machine. The first nine fields are the block's whole state (R32: the cursor and 37 cells). `input` and
`output` are the MODEL's own (notes/assumptions/1.md): what the token source will present in the coming
cycles, oldest first, and what the event sink has received so far, oldest first (00_scope.md R5, R51). -/
structure State where
  cursor : Cursor
  min : Vector Trit 7
  hour : Vector Trit 6
  day : Vector Trit 6
  wday : Vector Trit 3
  mon : Vector Trit 5
  year : Vector Trit 8
  tz1 : Trit
  tz2 : Trit
  input : List PortIn
  output : List Event
deriving DecidableEq, Repr

/-- The block has no fault, no stuck state and no hang: "Every step completes" (60_exceptions.md R179). No
constructor, so no step can answer one (safe: there is nothing here that a step could stop on). -/
inductive Fault where
deriving DecidableEq, Repr

/-- The block refuses nothing (R179). The one constructor is the host's, for an instruction that has no
meaning yet; no meaning answers it, and every instruction has its meaning (safe: it would stop the run). -/
inductive Refusal where
  /-- Raised only by a refused arm of exec; none is left. Safe. -/
  | notModelled (mnemonic : String)
deriving DecidableEq, Repr

/-- The state after reset: cursor 0 and every cell Zero (R31, R32, R190; the spec's decision D4,
notes/assumptions/2.md). No input is waiting and the sink has received nothing (R192; DESIGN CHOICE,
notes/assumptions/3.md). -/
def State.reset : State where
  cursor := 0
  min := Vector.replicate 7 .zero
  hour := Vector.replicate 6 .zero
  day := Vector.replicate 6 .zero
  wday := Vector.replicate 3 .zero
  mon := Vector.replicate 5 .zero
  year := Vector.replicate 8 .zero
  tz1 := .zero
  tz2 := .zero
  input := []
  output := []

end Sys2Proof.Machine
end

