-- ==== Sys2Proof/Machine/Flags.lean ====
section
/-! DEFINITION. The even-parity checker (spec 40_bcd_parity.md R82 to R85) and the resolution of the two timezone flags (44_minute_boundary.md R151). -/

namespace Sys2Proof.Machine

/-- `popcount(S)`: how many cells hold One; Invalid is not counted (R82). -/
def popcount : List Trit → Nat
  | [] => 0
  | v :: vs => (if v = .one then 1 else 0) + popcount vs

/-- `lnot(p)`: 1 for Zero, 0 for One and for Invalid (R83). For Invalid the spec follows the literal formula
of its source against the conclusion drawn there (90_conflicts.md C2; notes/assumptions/10.md). -/
def lnot : Trit → Nat
  | .zero => 1
  | .one => 0
  | .invalid => 0

/-- `parity_fail(S, p)`: true when the check FAILS and the caller warns (R84, R202). -/
def parityFail (cells : List Trit) (p : Trit) : Bool := popcount cells % 2 == lnot p

/-- The offset of a flag pair, and whether the pair is invalid (R151). -/
def resolveTz : Trit → Trit → Nat × Bool
  | .one, .zero => (2, false)
  | .zero, .one => (1, false)
  | _, _ => (0, true)

end Sys2Proof.Machine
end

