-- ==== Sys2Proof/Machine/Operands.lean ====
section
/-! DEFINITION. Reading the storage: buffers as sequences, single cells, the date concatenation, and the BCD field decoder (spec 20_memory.md R41 to R43, 40_bcd_parity.md R80, R81). -/

namespace Sys2Proof.Machine

/-- A whole buffer as a sequence, cell 0 first (R7, R42). A read changes nothing (R46). -/
def State.buf (s : State) : Buf → List Trit
  | .min => s.min.toList
  | .hour => s.hour.toList
  | .day => s.day.toList
  | .wday => s.wday.toList
  | .mon => s.mon.toList
  | .year => s.year.toList

/-- One cell; `none` for an index that the buffer does not have. -/
def State.readCell (s : State) : Cell → Option Trit
  | .buf b i => (s.buf b)[i]?
  | .tz1 => some s.tz1
  | .tz2 => some s.tz2

/-- The sequence checked at cursor 58: DAY, WDAY, MON, YEAR, 22 cells (R43). -/
def State.dateCells (s : State) : List Trit :=
  s.buf .day ++ s.buf .wday ++ s.buf .mon ++ s.buf .year

/-- The weight table `W[0..7]` (R80). -/
def bcdWeights : List Nat := [1, 2, 4, 8, 10, 20, 40, 80]

/-- The sum of the weights whose cell holds One; Zero and Invalid contribute nothing (R81). -/
def weigh : List Nat → List Trit → Nat
  | w :: ws, v :: vs => (if v = .one then w else 0) + weigh ws vs
  | _, _ => 0

/-- `decode(S)` (R81): always a value, for any cells. Cells beyond the eighth have no weight in the spec and
are not counted (notes/assumptions/17.md); no buffer is longer than 8. -/
def bcdDecode (cells : List Trit) : Nat := weigh bcdWeights cells

/-- The five decoded fields and the offset, as MARK reports them (44_minute_boundary.md R150, R152). -/
def State.frameResult (s : State) (offset : Nat) : Frame where
  year := bcdDecode (s.buf .year)
  month := bcdDecode (s.buf .mon)
  day := bcdDecode (s.buf .day)
  hour := bcdDecode (s.buf .hour)
  minute := bcdDecode (s.buf .min)
  tzOffset := offset

end Sys2Proof.Machine
end

