-- ==== Sys2Proof/Config.lean ====
section
/-! DEFINITION. What is fixed for the block (spec 00_scope.md R4), and the three OPEN parameters of the event sink (92_eei_decisions.md D14, D17, D19), which have no body. No rule of the block reads an OPEN parameter. -/

namespace Sys2Proof

/-- `CURSOR_MAX`: the largest value the cursor holds (R4, decision D5). -/
def Config.cursorMax : Cursor := 60

/-- The token code of MinuteBoundary (R60, decision D1). -/
def Config.markCode : TokCode := 3

/-- `RENDER_WIDE` (OPEN, D14): what the sink prints for a field above 99. -/
opaque Config.renderWide : Nat → List Char

/-- `INVALID_ECHO` (OPEN, D17): the character the sink prints for an Invalid weather bit. -/
opaque Config.invalidEcho : Char

/-- `MESSAGE_TEXT` (OPEN, D19): the text the sink prints for an event, by the event's kind code and
argument at output slot A (R62, R63). -/
opaque Config.messageText : BitVec 4 → BitVec 3 → List Char

end Sys2Proof
end

