-- ==== Sys2Proof/Machine/Ops.lean ====
section
/-! DEFINITION. The named operations that write the state: emitting events, moving the cursor, storing a cell, consuming an input cycle, reset. There is no trap to take and none to return from (spec 60_exceptions.md R179, R180); what takes the place of an exception is an event, and `emit` is its one shared operation (R9, R171). -/

namespace Sys2Proof.Machine

/-- `emit E`: append one event to the output; nothing else changes, whatever the event (R9, R171). -/
def State.emit (s : State) (e : Event) : State :=
  { s with output := s.output ++ [e] }

/-- Emit an event when a condition holds; nothing else changes either way (R171). -/
def State.emitIf (s : State) (b : Bool) (e : Event) : State :=
  { s with output := s.output ++ (if b then [e] else []) }

/-- The next cursor of a bit token: `min(cursor + 1, 60)` (10_state.md R27, decision D5). -/
def nextCursor (c : Cursor) : Cursor := ⟨min (c.val + 1) Config.cursorMax.val, by
  have : Config.cursorMax.val = 60 := rfl
  omega⟩

/-- `advance`, the common tail of every bit-token operation (R12). -/
def State.advance (s : State) : State := { s with cursor := nextCursor s.cursor }

/-- `cursor <- 0`, the tail of MARK, which does not advance (R27, R150). -/
def State.home (s : State) : State := { s with cursor := 0 }

/-- `F[i] <- v` (R7): one cell of one buffer; every other cell keeps its value. An index the buffer does not
have writes nothing; no operation forms one (R44; notes/assumptions/16.md). -/
def State.setCell (s : State) (b : Buf) (i : Nat) (v : Trit) : State :=
  match b with
  | .min => { s with min := s.min.setIfInBounds i v }
  | .hour => { s with hour := s.hour.setIfInBounds i v }
  | .day => { s with day := s.day.setIfInBounds i v }
  | .wday => { s with wday := s.wday.setIfInBounds i v }
  | .mon => { s with mon := s.mon.setIfInBounds i v }
  | .year => { s with year := s.year.setIfInBounds i v }

/-- `TZ1 <- v` (R25). -/
def State.setTz1 (s : State) (v : Trit) : State := { s with tz1 := v }

/-- `TZ2 <- v` (R25). -/
def State.setTz2 (s : State) (v : Trit) : State := { s with tz2 := v }

/-- The current input cycle is over; `rest` are the cycles to come (R49: a token is consumed once). -/
def State.consume (s : State) (rest : List PortIn) : State := { s with input := rest }

/-- A cycle with `rst = 1`: every register takes its reset value, whatever it held (70_reset_and_hazards.md
R191). It emits nothing (R192), so the sink's record stands; the cycles to come are the source's. -/
def State.resetCycle (s : State) (rest : List PortIn) : State :=
  { State.reset with input := rest, output := s.output }

end Sys2Proof.Machine
end

