-- ==== Sys2Proof/Machine/Boundary.lean ====
section
/-! DEFINITION. The minute-boundary operation (spec 44_minute_boundary.md R150 to R157). -/

namespace Sys2Proof.Machine

open Host (Outcome)

/-- MARK (R150): resolve the offset, warn if the pair is invalid, emit the frame result, set the cursor to 0.
It clears no cell (R153) and checks no range (R157). -/
def execMark (s : State) : Outcome State Fault Refusal :=
  let r := resolveTz s.tz1 s.tz2
  .next (((s.emitIf r.2 .wTz).emit (.frame (s.frameResult r.1))).home)

end Sys2Proof.Machine
end

