-- ==== Sys2Proof/Machine/DateFields.lean ====
section
/-! DEFINITION. The operations at cursor 36 to 60: the date fields, their parity, the leap second, the overrun (spec 43_date_fields.md R130 to R138). -/

namespace Sys2Proof.Machine

open Host (Outcome)

/-- SDAY (R130): `DAY[c - 36] <- v`, with `i = c - 36`. -/
def execSday (i : Nat) (v : Trit) (s : State) : Outcome State Fault Refusal :=
  .next ((s.setCell .day i v).advance)

/-- SWDAY (R131): `WDAY[c - 42] <- v`, with `i = c - 42`. -/
def execSwday (i : Nat) (v : Trit) (s : State) : Outcome State Fault Refusal :=
  .next ((s.setCell .wday i v).advance)

/-- SWDAYL (R133): store `WDAY[2]` first, then decode all three cells and emit the number (decision D11,
notes/assumptions/13.md). -/
def execSwdayl (v : Trit) (s : State) : Outcome State Fault Refusal :=
  let t := s.setCell .wday 2 v
  .next ((t.emit (.weekday (bcdDecode (t.buf .wday)))).advance)

/-- SMON (R134): `MON[c - 45] <- v`, with `i = c - 45`. -/
def execSmon (i : Nat) (v : Trit) (s : State) : Outcome State Fault Refusal :=
  .next ((s.setCell .mon i v).advance)

/-- SYEAR (R135): `YEAR[c - 50] <- v`, with `i = c - 50`. -/
def execSyear (i : Nat) (v : Trit) (s : State) : Outcome State Fault Refusal :=
  .next ((s.setCell .year i v).advance)

/-- PDATE (R136): warn when the parity over the 22 date cells fails; `v` is not stored. -/
def execPdate (v : Trit) (s : State) : Outcome State Fault Refusal :=
  .next ((s.emitIf (parityFail s.dateCells v) .wParDate).advance)

/-- LEAPNOW (R137): one notice for every value of the bit, which is not used. -/
def execLeapnow (_v : Trit) (s : State) : Outcome State Fault Refusal :=
  .next ((s.emit .leapNow).advance)

/-- OVERRUN (R138, decision D6): no event and no cell; at cursor 60 `advance` keeps the cursor. -/
def execOverrun (_v : Trit) (s : State) : Outcome State Fault Refusal :=
  .next s.advance

end Sys2Proof.Machine
end

