-- ==== Sys2Proof/Machine/Status.lean ====
section
/-! DEFINITION. The operations at cursor 0 to 20 (spec 41_status_positions.md R100 to R108). None of them reads a cell. -/

namespace Sys2Proof.Machine

open Host (Outcome)

/-- START (R100): warn unless the start bit is Zero. -/
def execStart (v : Trit) (s : State) : Outcome State Fault Refusal :=
  .next ((s.emitIf (v != .zero) .wStart).advance)

/-- WX (R101): echo the payload bit; nothing is kept. -/
def execWx (v : Trit) (s : State) : Outcome State Fault Refusal :=
  .next ((s.emit (.wx v)).advance)

/-- CALL (R102): echo the call bit. -/
def execCall (v : Trit) (s : State) : Outcome State Fault Refusal :=
  .next ((s.emit (.call v)).advance)

/-- DSTANN (R103): announce only if One. -/
def execDstann (v : Trit) (s : State) : Outcome State Fault Refusal :=
  .next ((s.emitIf (v == .one) .dstAnn).advance)

/-- STZ1 (R104): store the trit unchanged in TZ1. -/
def execStz1 (v : Trit) (s : State) : Outcome State Fault Refusal :=
  .next ((s.setTz1 v).advance)

/-- STZ2 (R105): store the trit unchanged in TZ2. -/
def execStz2 (v : Trit) (s : State) : Outcome State Fault Refusal :=
  .next ((s.setTz2 v).advance)

/-- LEAPANN (R106): announce only if One. -/
def execLeapann (v : Trit) (s : State) : Outcome State Fault Refusal :=
  .next ((s.emitIf (v == .one) .leapAnn).advance)

/-- TMARK (R107): warn unless the time marker is One. -/
def execTmark (v : Trit) (s : State) : Outcome State Fault Refusal :=
  .next ((s.emitIf (v != .one) .wTmark).advance)

end Sys2Proof.Machine
end

