-- ==== Sys2Proof/Machine/TimeFields.lean ====
section
/-! DEFINITION. The operations at cursor 21 to 35: minute and hour with their parity (spec 42_time_fields.md R120 to R124). -/

namespace Sys2Proof.Machine

open Host (Outcome)

/-- SMIN (R120): `MIN[c - 21] <- v`, with `i = c - 21`. -/
def execSmin (i : Nat) (v : Trit) (s : State) : Outcome State Fault Refusal :=
  .next ((s.setCell .min i v).advance)

/-- PMIN (R121): warn when the minute parity fails; `v` is not stored. -/
def execPmin (v : Trit) (s : State) : Outcome State Fault Refusal :=
  .next ((s.emitIf (parityFail (s.buf .min) v) .wParMin).advance)

/-- SHOUR (R122): `HOUR[c - 29] <- v`, with `i = c - 29`. -/
def execShour (i : Nat) (v : Trit) (s : State) : Outcome State Fault Refusal :=
  .next ((s.setCell .hour i v).advance)

/-- PHOUR (R123): warn when the hour parity fails; `v` is not stored. -/
def execPhour (v : Trit) (s : State) : Outcome State Fault Refusal :=
  .next ((s.emitIf (parityFail (s.buf .hour) v) .wParHour).advance)

end Sys2Proof.Machine
end

