-- ==== Sys2Proof/Machine/Dispatch.lean ====
section
/-! DEFINITION. One arm per operation of the selection table (spec 30_encoding.md R65). -/

namespace Sys2Proof.Machine

def exec (i : Instr) (s : State) : Host.Outcome State Fault Refusal :=
  match i with
  | .mark => Sys2Proof.Machine.execMark s
  | .start v => Sys2Proof.Machine.execStart v s
  | .wx v => Sys2Proof.Machine.execWx v s
  | .call v => Sys2Proof.Machine.execCall v s
  | .dstann v => Sys2Proof.Machine.execDstann v s
  | .stz1 v => Sys2Proof.Machine.execStz1 v s
  | .stz2 v => Sys2Proof.Machine.execStz2 v s
  | .leapann v => Sys2Proof.Machine.execLeapann v s
  | .tmark v => Sys2Proof.Machine.execTmark v s
  | .smin n v => Sys2Proof.Machine.execSmin n v s
  | .pmin v => Sys2Proof.Machine.execPmin v s
  | .shour n v => Sys2Proof.Machine.execShour n v s
  | .phour v => Sys2Proof.Machine.execPhour v s
  | .sday n v => Sys2Proof.Machine.execSday n v s
  | .swday n v => Sys2Proof.Machine.execSwday n v s
  | .swdayl v => Sys2Proof.Machine.execSwdayl v s
  | .smon n v => Sys2Proof.Machine.execSmon n v s
  | .syear n v => Sys2Proof.Machine.execSyear n v s
  | .pdate v => Sys2Proof.Machine.execPdate v s
  | .leapnow v => Sys2Proof.Machine.execLeapnow v s
  | .overrun v => Sys2Proof.Machine.execOverrun v s

end Sys2Proof.Machine
end

