-- ==== Sys2Proof/WellFormed.lean ====
section
/-! DEFINITION. When an instruction is one that the selection table can give: every store's cell index lies in its buffer's range (spec 20_memory.md R44). -/

namespace Sys2Proof

/-- How many cell indices the store operations of each row can carry: the number of cursor values of the
row (R65). Rows without an index have none to check. -/
def Instr.wellFormed : Instr → Bool
  | .smin i _ => i < 7
  | .shour i _ => i < 6
  | .sday i _ => i < 6
  | .swday i _ => i < 2
  | .smon i _ => i < 5
  | .syear i _ => i < 8
  | .mark => true
  | .start _ => true
  | .wx _ => true
  | .call _ => true
  | .dstann _ => true
  | .stz1 _ => true
  | .stz2 _ => true
  | .leapann _ => true
  | .tmark _ => true
  | .pmin _ => true
  | .phour _ => true
  | .swdayl _ => true
  | .pdate _ => true
  | .leapnow _ => true
  | .overrun _ => true

end Sys2Proof
end

