-- ==== Sys2Proof/Decode.lean ====
section
/-! DEFINITION. From token codes and the cursor to an operation (spec 30_encoding.md R60, R64, R65, R66), and the encoder back. -/

namespace Sys2Proof

/-- The number of a trit: 0, 1, 2 (R6); also its two-bit storage code (R21). -/
def Trit.num : Trit → Nat
  | .zero => 0
  | .one => 1
  | .invalid => 2

/-- The two-bit code of a token (R60): a bit token's code is the code of its trit. -/
def Token.code : Token → TokCode
  | .bit v => BitVec.ofNat 2 v.num
  | .mark => Config.markCode

/-- The token of a two-bit code (R60); all four codes are assigned, so the function is total (R67). -/
def Token.ofCode (c : TokCode) : Token :=
  if c = Config.markCode then .mark
  else if c = 0 then .bit .zero
  else if c = 1 then .bit .one
  else .bit .invalid

/-- The operation of a bit token at cursor `c` (R65), with the cell index of a store formed as
`c - base` (R66). The ranges are those of the table, in its order; cursor 60 is the row OVERRUN. -/
def selectBit (c : Cursor) (v : Trit) : Instr :=
  if c.val ≤ 0 then .start v
  else if c.val ≤ 14 then .wx v
  else if c.val ≤ 15 then .call v
  else if c.val ≤ 16 then .dstann v
  else if c.val ≤ 17 then .stz1 v
  else if c.val ≤ 18 then .stz2 v
  else if c.val ≤ 19 then .leapann v
  else if c.val ≤ 20 then .tmark v
  else if c.val ≤ 27 then .smin (c.val - 21) v
  else if c.val ≤ 28 then .pmin v
  else if c.val ≤ 34 then .shour (c.val - 29) v
  else if c.val ≤ 35 then .phour v
  else if c.val ≤ 41 then .sday (c.val - 36) v
  else if c.val ≤ 43 then .swday (c.val - 42) v
  else if c.val ≤ 44 then .swdayl v
  else if c.val ≤ 49 then .smon (c.val - 45) v
  else if c.val ≤ 57 then .syear (c.val - 50) v
  else if c.val ≤ 58 then .pdate v
  else if c.val ≤ 59 then .leapnow v
  else .overrun v

/-- The operation of a step: a function of the token and of the cursor before the step (R64). -/
def select (t : Token) (c : Cursor) : Instr :=
  match t with
  | .mark => .mark
  | .bit v => selectBit c v

/-- Why a selector word stands for no operation. -/
inductive DecodeError where
  /-- The cursor field is 61, 62 or 63, values the cursor never holds (R69). -/
  | cursorUnreachable
deriving DecidableEq, Repr

/-- The token code of a selector word: bits 1..0. -/
def SelWord.tok (w : SelWord) : TokCode := w.extractLsb' 0 2

/-- The cursor field of a selector word: bits 7..2, as a number 0 to 63. -/
def SelWord.cursorField (w : SelWord) : Nat := (w.extractLsb' 2 6).toNat

/-- The operation that a selector word stands for (R64, R65); a cursor field above 60 is rejected. -/
def decodeWord (w : SelWord) : Except DecodeError Instr :=
  if h : SelWord.cursorField w < 61 then
    .ok (select (Token.ofCode (SelWord.tok w)) ⟨SelWord.cursorField w, h⟩)
  else .error .cursorUnreachable

/-- The selector word of a token code at a cursor value. -/
def packWord (t : TokCode) (c : Nat) : SelWord := BitVec.ofNat 6 c ++ t

/-- The token that carries an instruction's operand. -/
def Instr.token : Instr → Token
  | .mark => .mark
  | .start v => .bit v
  | .wx v => .bit v
  | .call v => .bit v
  | .dstann v => .bit v
  | .stz1 v => .bit v
  | .stz2 v => .bit v
  | .leapann v => .bit v
  | .tmark v => .bit v
  | .smin _ v => .bit v
  | .pmin v => .bit v
  | .shour _ v => .bit v
  | .phour v => .bit v
  | .sday _ v => .bit v
  | .swday _ v => .bit v
  | .swdayl v => .bit v
  | .smon _ v => .bit v
  | .syear _ v => .bit v
  | .pdate v => .bit v
  | .leapnow v => .bit v
  | .overrun v => .bit v

/-- The first cursor value at which the table gives an instruction, and how many there are in a row
(R65; a store's index fixes its cursor, R66). -/
def Instr.cursors : Instr → Nat × Nat
  | .mark => (0, 61)
  | .start _ => (0, 1)
  | .wx _ => (1, 14)
  | .call _ => (15, 1)
  | .dstann _ => (16, 1)
  | .stz1 _ => (17, 1)
  | .stz2 _ => (18, 1)
  | .leapann _ => (19, 1)
  | .tmark _ => (20, 1)
  | .smin i _ => (21 + i, 1)
  | .pmin _ => (28, 1)
  | .shour i _ => (29 + i, 1)
  | .phour _ => (35, 1)
  | .sday i _ => (36 + i, 1)
  | .swday i _ => (42 + i, 1)
  | .swdayl _ => (44, 1)
  | .smon i _ => (45 + i, 1)
  | .syear i _ => (50 + i, 1)
  | .pdate _ => (58, 1)
  | .leapnow _ => (59, 1)
  | .overrun _ => (60, 1)

/-- Every selector word of an instruction: its token's code at each of its cursor values. -/
def encodings (i : Instr) : List SelWord :=
  (List.range' i.cursors.1 i.cursors.2).map (packWord i.token.code)

/-- The selector word of an instruction at its first cursor value. -/
def encode (i : Instr) : SelWord := packWord i.token.code i.cursors.1

/-- The host's view of the decoder: the instruction of the first `nbits` bits `w`, the token code in bits
1..0 as spec/opcode_table.json numbers `tok[1:0]` (R74) and the cursor of the pair in bits 7..2; every
higher bit is 0 in a word of this block (notes/assumptions/6.md, 7.md). -/
def decodeTableWord (nbits w : Nat) : Option Instr :=
  if w < 2 ^ min nbits 8 then
    match decodeWord (BitVec.ofNat 8 w) with
    | .ok i => some i
    | .error _ => none
  else none

end Sys2Proof
end

