-- ==== Sys2Proof/Machine/Fetch.lean ====
section
/-! DEFINITION. What the input pins of a cycle present (spec 30_encoding.md R63). -/

namespace Sys2Proof.Machine

/-- The token that a cycle without reset hands to the block: none while `tok_valid = 0` (R63). -/
def PortIn.token (p : PortIn) : Option Token :=
  if p.tokValid then some (Token.ofCode p.tok) else none

/-- The pins of a cycle that presents one token. -/
def PortIn.ofToken (t : Token) : PortIn := { rst := false, tokValid := true, tok := t.code }

end Sys2Proof.Machine
end

