-- ==== Sys2Proof/Machine/Step.lean ====
section
/-! DEFINITION. One clock cycle of the block: at most one token is consumed (spec 00_scope.md R5, 30_encoding.md R63). -/

namespace Sys2Proof.Machine

/-- One step. With no cycle waiting, nothing happens (R63, R205; notes/assumptions/4.md). `rst` has priority over
a token (70_reset_and_hazards.md R191). A cycle without a valid token changes nothing and emits nothing
(R63). A token selects its operation by the cursor before the step (R64). -/
def step (s : State) : Host.Outcome State Fault Refusal :=
  match s.input with
  | [] => .next s
  | p :: rest =>
    if p.rst then .next (s.resetCycle rest)
    else
      match p.token with
      | none => .next (s.consume rest)
      | some t => exec (select t s.cursor) (s.consume rest)

/-- `s` with the selector word `w` placed so that the very next step runs its instruction
(notes/assumptions/5.md): its token is presented in the next cycle, before every cycle already waiting,
and for a bit token the cursor is the word's. MARK runs at any cursor, so the cursor is left alone. A word
that the decoder refuses places nothing. -/
def State.withFetchWord (s : State) (nbits w : Nat) : State :=
  match decodeTableWord nbits w with
  | none => s
  | some i =>
    { s with
      input := PortIn.ofToken i.token :: s.input
      cursor := if i = .mark then s.cursor else
        if h : SelWord.cursorField (BitVec.ofNat 8 w) < 61 then ⟨SelWord.cursorField (BitVec.ofNat 8 w), h⟩
        else s.cursor }

end Sys2Proof.Machine
end

