-- ==== Sys2Proof/Machine/Ports.lean ====
section
/-! DEFINITION. Event codes, classes and the output slots of the port-level rendering (spec 30_encoding.md R62, R63). -/

namespace Sys2Proof

/-- The 4-bit code of an event kind (R62). -/
def Event.code : Event → BitVec 4
  | .wStart => 0
  | .wx _ => 1
  | .call _ => 2
  | .dstAnn => 3
  | .leapAnn => 4
  | .wTmark => 5
  | .wParMin => 6
  | .wParHour => 7
  | .weekday _ => 8
  | .wParDate => 9
  | .leapNow => 10
  | .wTz => 11
  | .frame _ => 12

/-- The class of an event kind (R62). -/
def Event.cls : Event → EventClass
  | .wStart => .warning
  | .wx _ => .informational
  | .call _ => .informational
  | .dstAnn => .informational
  | .leapAnn => .informational
  | .wTmark => .warning
  | .wParMin => .warning
  | .wParHour => .warning
  | .weekday _ => .informational
  | .wParDate => .warning
  | .leapNow => .informational
  | .wTz => .warning
  | .frame _ => .result

/-- `evA_arg[2:0]` (R63): the trit code for WX and CALL, the number for WEEKDAY, 0 otherwise. -/
def Event.arg : Event → BitVec 3
  | .wx v => BitVec.ofNat 3 v.num
  | .call v => BitVec.ofNat 3 v.num
  | .weekday n => BitVec.ofNat 3 n
  | _ => 0

namespace Machine

/-- Output slot A while `evA_valid = 1` (R63). -/
structure SlotA where
  kind : BitVec 4
  arg : BitVec 3
deriving DecidableEq, Repr

/-- Output slot B while `frame_valid = 1` (R63; widths R4). -/
structure SlotB where
  year : BitVec 8
  month : BitVec 5
  day : BitVec 6
  hour : BitVec 6
  minute : BitVec 7
  tz : BitVec 2
deriving DecidableEq, Repr

/-- The output pins of one cycle: `none` stands for a valid signal of 0, when the spec gives the slot's
other signals no meaning (R155; notes/assumptions/19.md). -/
structure PortOut where
  slotA : Option SlotA
  slotB : Option SlotB
deriving DecidableEq, Repr

/-- The FRAME payload at the port. -/
def SlotB.ofFrame (f : Frame) : SlotB where
  year := BitVec.ofNat 8 f.year
  month := BitVec.ofNat 5 f.month
  day := BitVec.ofNat 6 f.day
  hour := BitVec.ofNat 6 f.hour
  minute := BitVec.ofNat 7 f.minute
  tz := BitVec.ofNat 2 f.tzOffset

/-- Place one event: FRAME in slot B, every other event in slot A (R63). -/
def PortOut.place (o : PortOut) : Event → PortOut
  | .frame f => { o with slotB := some (SlotB.ofFrame f) }
  | e => { o with slotA := some { kind := e.code, arg := e.arg } }

/-- The pins that carry the events of one step, in order. -/
def PortOut.ofEvents (es : List Event) : PortOut :=
  es.foldl PortOut.place { slotA := none, slotB := none }

/-- The events that the step from `s` emits: what it appends to the sink's record. -/
def State.stepEvents (s : State) : List Event :=
  match step s with
  | .next t => t.output.drop s.output.length
  | .fault _ => []
  | .refused _ => []

/-- The output pins in the cycle of the step from `s`: a function of the state before the step and of the
input pins (R63). -/
def State.portOut (s : State) : PortOut := PortOut.ofEvents s.stepEvents

/-- The trit of a 3-bit slot argument (R21; code 3 is never stored). -/
def tritOfArg (a : BitVec 3) : Option Trit :=
  if a = 0 then some .zero else if a = 1 then some .one else if a = 2 then some .invalid else none

/-- The event that slot A carries; `none` for the codes 12 to 15, which never stand there. -/
def SlotA.event (x : SlotA) : Option Event :=
  if x.kind = 0 then some .wStart
  else if x.kind = 1 then (tritOfArg x.arg).map .wx
  else if x.kind = 2 then (tritOfArg x.arg).map .call
  else if x.kind = 3 then some .dstAnn
  else if x.kind = 4 then some .leapAnn
  else if x.kind = 5 then some .wTmark
  else if x.kind = 6 then some .wParMin
  else if x.kind = 7 then some .wParHour
  else if x.kind = 8 then some (.weekday x.arg.toNat)
  else if x.kind = 9 then some .wParDate
  else if x.kind = 10 then some .leapNow
  else if x.kind = 11 then some .wTz
  else none

/-- The FRAME event that slot B carries. -/
def SlotB.event (x : SlotB) : Event :=
  .frame { year := x.year.toNat, month := x.month.toNat, day := x.day.toNat, hour := x.hour.toNat,
           minute := x.minute.toNat, tzOffset := x.tz.toNat }

/-- What a sink reads from the pins of one cycle: slot A precedes slot B (R63, R178). -/
def PortOut.events (o : PortOut) : List Event :=
  (o.slotA.bind SlotA.event).toList ++ (o.slotB.map SlotB.event).toList

end Machine

end Sys2Proof
end

