-- ==== Sys2Proof/Machine/Sink.lean ====
section
/-! DEFINITION. The event sink's reference rendering, a function of the host outside the block (spec 44_minute_boundary.md R156), with the sink's three OPEN parameters (92_eei_decisions.md D14, D17, D19). -/

namespace Sys2Proof.Machine

/-- One decimal digit. -/
def digitChar (n : Nat) : Char := Char.ofNat (48 + n % 10)

/-- A field of the rendering: two digits, zero-padded (R156); above 99 the source says nothing (N21). -/
def renderField (n : Nat) : List Char :=
  if n ≤ 99 then [digitChar (n / 10), digitChar n] else Config.renderWide n

/-- The reference rendering `20YY-MM-DDThh:mm+OO:00` (R156). -/
def renderFrame (f : Frame) : List Char :=
  ['2', '0'] ++ renderField f.year ++ ['-'] ++ renderField f.month ++ ['-'] ++ renderField f.day ++ ['T']
    ++ renderField f.hour ++ [':'] ++ renderField f.minute ++ ['+'] ++ renderField f.tzOffset ++ [':', '0', '0']

/-- The text a sink prints for one event: the payload bit verbatim (41_status_positions.md R101), the rendered
timestamp (R156), and for the rest the sink's own wording (R62, D19). -/
def sinkText : Event → List Char
  | .frame f => renderFrame f
  | .wx .zero => ['0']
  | .wx .one => ['1']
  | .wx .invalid => [Config.invalidEcho]
  | e => Config.messageText e.code e.arg

end Sys2Proof.Machine
end

