-- ==== Sys2Proof/Machine/Source.lean ====
section
/-! DEFINITION. The line source, a function of the host outside the block: from the textual capture to the input pins (spec 30_encoding.md R70 to R73). -/

namespace Sys2Proof.Machine

/-- The token of one line, the line given without its newline (R71): only the first character counts. -/
def lineToken : List Char → Token
  | [] => .mark
  | c :: _ => if c = '0' then .bit .zero else if c = '1' then .bit .one else .bit .invalid

/-- Whether the line source itself reports the line as invalid (R72, R176); the block emits no such event. -/
def lineNotice (line : List Char) : Bool := lineToken line == .bit .invalid

/-- A capture as input cycles: one line, one token (R70). -/
def captureInput (lines : List (List Char)) : List PortIn :=
  lines.map fun l => PortIn.ofToken (lineToken l)

/-- The token of one character of the short form `0`, `1`, `x`, `/` (R73). A space or a line break is for reading only
and gives no token (R73); that every other character gives none either is the model's choice, since R73 says nothing
of it (DESIGN CHOICE, notes/assumptions/25.md). -/
def shortToken (c : Char) : Option Token :=
  if c = '0' then some (.bit .zero)
  else if c = '1' then some (.bit .one)
  else if c = 'x' then some (.bit .invalid)
  else if c = '/' then some .mark
  else none

/-- A token stream in the short form as input cycles (R73); characters without a token are skipped, those outside R73's
notation too (notes/assumptions/25.md). -/
def shortInput (text : List Char) : List PortIn :=
  (text.filterMap shortToken).map PortIn.ofToken

end Sys2Proof.Machine
end

