-- ==== Sys2Proof/Machine/System.lean ====
section
/-! DEFINITION. The block together with its line source (spec 60_exceptions.md R176, R178): the source reports each InvalidBit line, and its notice precedes the block's events of that line's token. -/

namespace Sys2Proof.Machine

/-- What the sink of the whole system receives: the source's generic notice of an invalid line (30_encoding.md
R72), or an event of the block. The notice is no Event: the block has none for an invalid token (R176, decision
D9; notes/assumptions/15.md). -/
inductive Report where
  | invalidLine
  | block (e : Event)
deriving DecidableEq, Repr

/-- The block's event that a report carries, if it is the block's. -/
def Report.event? : Report → Option Event
  | .invalidLine => none
  | .block e => some e

/-- The block, the lines its source has still to read, oldest first and each without its newline, and the reports
the sink has received, oldest first (notes/assumptions/24.md). -/
structure System where
  block : State
  lines : List (List Char)
  reports : List Report
deriving DecidableEq, Repr

/-- A capture before a freshly reset block: nothing read, nothing reported. -/
def System.start (lines : List (List Char)) : System where
  block := State.reset
  lines := lines
  reports := []

/-- The reports of the source itself on one line: one notice exactly for an InvalidBit line (R72, R176). -/
def sourceReports (line : List Char) : List Report := if lineNotice line then [.invalidLine] else []

/-- The block with the token of one line presented in its next cycle (R70). -/
def System.fed (y : System) (line : List Char) : State :=
  { y.block with input := PortIn.ofToken (lineToken line) :: y.block.input }

/-- One line of the capture: the source reads it, reports it if it is invalid, and the block takes its token; the
notice precedes the block's events of that token (R176, R178). With no line left nothing happens (R205). -/
def System.step (y : System) : Host.Outcome System Fault Refusal :=
  match y.lines with
  | [] => .next y
  | line :: rest =>
    match Sys2Proof.Machine.step (y.fed line) with
    | .next t => .next
        { block := t
          lines := rest
          reports := y.reports ++ sourceReports line ++ (y.fed line).stepEvents.map .block }
    | .fault f => .fault f
    | .refused r => .refused r

/-- `k` lines of the capture, one after another. -/
def System.run : Nat → System → Host.Outcome System Fault Refusal
  | 0, y => .next y
  | k + 1, y =>
    match y.step with
    | .next z => System.run k z
    | .fault f => .fault f
    | .refused r => .refused r

end Sys2Proof.Machine
end

