-- ==== Sys2Proof/Safety.lean ====
section
/-! DEFINITION. What claims are stated in: safe runs, the positions of cells in the minute (spec 20_memory.md R41), well-formed records of events (30_encoding.md R62, 40_bcd_parity.md R87, 44_minute_boundary.md R151). -/

namespace Sys2Proof.Safety

open Sys2Proof.Machine

/-- `k` steps of the machine: the host's run of Sys2Proof.core, at the model's own types. -/
def runSteps (k : Nat) (s : State) : Host.Outcome State Fault Refusal := Host.Core.run Sys2Proof.core k s

/-- A run of `k` steps from `s` that neither faults nor is refused. -/
def safeRun (k : Nat) (s : State) : Prop := ∃ t, runSteps k s = .next t

/-- How many cells each buffer has (10_state.md R22). -/
def bufLen : Buf → Nat
  | .min => 7
  | .hour => 6
  | .day => 6
  | .wday => 3
  | .mon => 5
  | .year => 8

/-- The first cursor value that writes each buffer (R22). -/
def bufBase : Buf → Nat
  | .min => 21
  | .hour => 29
  | .day => 36
  | .wday => 42
  | .mon => 45
  | .year => 50

/-- The one position at which a cell is written (R41). -/
def cellPosition : Cell → Nat
  | .buf b i => bufBase b + i
  | .tz1 => 17
  | .tz2 => 18

/-- The cells of a buffer. -/
def bufCells (b : Buf) : List Cell := (List.range (bufLen b)).map (Cell.buf b)

/-- The 37 cells of the block (R22, R25). -/
def allCells : List Cell :=
  [.tz1, .tz2] ++ bufCells .min ++ bufCells .hour ++ bufCells .day ++ bufCells .wday ++ bufCells .mon ++ bufCells .year

/-- The last column of the storage map (R41): the cells that a step reads, by token and cursor. At cursor 44 the
third weekday cell is read after it was written. -/
def cellsRead : Token → Nat → List Cell
  | .mark, _ => [.tz1, .tz2] ++ bufCells .year ++ bufCells .mon ++ bufCells .day ++ bufCells .hour ++ bufCells .min
  | .bit _, c =>
    if c = 28 then bufCells .min
    else if c = 35 then bufCells .hour
    else if c = 44 then bufCells .wday
    else if c = 58 then bufCells .day ++ bufCells .wday ++ bufCells .mon ++ bufCells .year
    else []

/-- The mnemonic of an operation (30_encoding.md R65). -/
def mnemonic : Instr → String
  | .mark => "MARK"
  | .start _ => "START"
  | .wx _ => "WX"
  | .call _ => "CALL"
  | .dstann _ => "DSTANN"
  | .stz1 _ => "STZ1"
  | .stz2 _ => "STZ2"
  | .leapann _ => "LEAPANN"
  | .tmark _ => "TMARK"
  | .smin _ _ => "SMIN"
  | .pmin _ => "PMIN"
  | .shour _ _ => "SHOUR"
  | .phour _ => "PHOUR"
  | .sday _ _ => "SDAY"
  | .swday _ _ => "SWDAY"
  | .swdayl _ => "SWDAYL"
  | .smon _ _ => "SMON"
  | .syear _ _ => "SYEAR"
  | .pdate _ => "PDATE"
  | .leapnow _ => "LEAPNOW"
  | .overrun _ => "OVERRUN"

/-- One row of the selection table for bit tokens: mnemonic, first and last cursor value (R65). -/
structure Row where
  name : String
  lo : Nat
  hi : Nat
deriving DecidableEq, Repr

/-- The 20 rows of the selection table whose token is a bit token (R65, R74). -/
def bitRows : List Row :=
  [⟨"START", 0, 0⟩, ⟨"WX", 1, 14⟩, ⟨"CALL", 15, 15⟩, ⟨"DSTANN", 16, 16⟩, ⟨"STZ1", 17, 17⟩] ++
  [⟨"STZ2", 18, 18⟩, ⟨"LEAPANN", 19, 19⟩, ⟨"TMARK", 20, 20⟩, ⟨"SMIN", 21, 27⟩, ⟨"PMIN", 28, 28⟩] ++
  [⟨"SHOUR", 29, 34⟩, ⟨"PHOUR", 35, 35⟩, ⟨"SDAY", 36, 41⟩, ⟨"SWDAY", 42, 43⟩, ⟨"SWDAYL", 44, 44⟩] ++
  [⟨"SMON", 45, 49⟩, ⟨"SYEAR", 50, 57⟩, ⟨"PDATE", 58, 58⟩, ⟨"LEAPNOW", 59, 59⟩, ⟨"OVERRUN", 60, 60⟩]

/-- A stream of bit tokens as input cycles. -/
def bitCycles (bits : List Trit) : List PortIn := bits.map fun v => PortIn.ofToken (.bit v)

/-- From `s` to `t` cell `x` took the value `v` and no other cell changed. -/
def writesOnly (s t : State) (x : Cell) (v : Trit) : Prop :=
  t.readCell x = some v ∧ ∀ y, y ≠ x → t.readCell y = s.readCell y

/-- The outcome of an even-parity check on a sequence of cells: the warning `w` when the number of One cells is
odd under a parity bit Zero, or even under any other parity bit (40_bcd_parity.md R85). -/
def parityEvents (cells : List Trit) (p : Trit) (w : Event) : List Event :=
  if cells.count .one % 2 = (if p = .zero then 1 else 0) then [w] else []

/-- The greatest number a buffer can decode to (R87). -/
def bufMax : Buf → Nat
  | .min => 85
  | .hour => 45
  | .day => 45
  | .wday => 7
  | .mon => 25
  | .year => 165

/-- The events of the two flags at a marker: a warning unless the pair is one of the two valid ones (R151). -/
def tzEvents (tz1 tz2 : Trit) : List Event :=
  if (tz1 = .one ∧ tz2 = .zero) ∨ (tz1 = .zero ∧ tz2 = .one) then [] else [.wTz]

/-- The offset of the two flags (R151). -/
def tzOffsetOf (tz1 tz2 : Trit) : Nat :=
  if tz1 = .one ∧ tz2 = .zero then 2 else if tz1 = .zero ∧ tz2 = .one then 1 else 0

/-- The cells that the bits of one minute leave in positions `lo` to `lo + n - 1`. -/
def slice (bits : List Trit) (lo n : Nat) : List Trit := (bits.drop lo).take n

/-- The bit at a position of the minute. -/
def bitAt (bits : List Trit) (c : Nat) : Trit := bits[c]?.getD .zero

/-- The frame result that the 59 bits of one minute spell, read as whole fields (R22, R152). -/
def minuteFrame (bits : List Trit) : Frame where
  year := bcdDecode (slice bits 50 8)
  month := bcdDecode (slice bits 45 5)
  day := bcdDecode (slice bits 36 6)
  hour := bcdDecode (slice bits 29 6)
  minute := bcdDecode (slice bits 21 7)
  tzOffset := tzOffsetOf (bitAt bits 17) (bitAt bits 18)

/-- The events of one whole minute of 59 bits and its marker, written as a function of the bits alone
(41_status_positions.md to 44_minute_boundary.md). -/
def minuteEvents (bits : List Trit) : List Event :=
  (if bitAt bits 0 = .zero then [] else [.wStart])
  ++ (slice bits 1 14).map .wx
  ++ [.call (bitAt bits 15)]
  ++ (if bitAt bits 16 = .one then [.dstAnn] else [])
  ++ (if bitAt bits 19 = .one then [.leapAnn] else [])
  ++ (if bitAt bits 20 = .one then [] else [.wTmark])
  ++ parityEvents (slice bits 21 7) (bitAt bits 28) .wParMin
  ++ parityEvents (slice bits 29 6) (bitAt bits 35) .wParHour
  ++ [.weekday (bcdDecode (slice bits 42 3))]
  ++ parityEvents (slice bits 36 22) (bitAt bits 58) .wParDate
  ++ tzEvents (bitAt bits 17) (bitAt bits 18)
  ++ [.frame (minuteFrame bits)]

/-- Two states with the same cursor and the same 37 cells (10_state.md R30). -/
def sameBlock (s t : State) : Prop :=
  s.cursor = t.cursor ∧ ∀ x, s.readCell x = t.readCell x

/-- The numbers an event carries lie in the ranges that `decode` and the offset can take (R87, R151). -/
def eventInRange : Event → Bool
  | .weekday n => n ≤ 7
  | .frame f => f.year ≤ 165 && f.month ≤ 25 && f.day ≤ 45 && f.hour ≤ 45 && f.minute ≤ 85 && f.tzOffset ≤ 2
  | _ => true

/-- In a record of events every `W_TZ` is directly followed by the frame it concerns, and a frame has offset 0
exactly when it has that warning before it (R150, R151). -/
def tzPaired : List Event → Bool
  | [] => true
  | .wTz :: .frame f :: es => f.tzOffset == 0 && tzPaired es
  | .wTz :: _ => false
  | .frame f :: es => f.tzOffset != 0 && tzPaired es
  | _ :: es => tzPaired es

/-- The invariant of the sink's record: every event in range, every timezone warning paired. -/
def recordOk (s : State) : Prop := (∀ e ∈ s.output, eventInRange e = true) ∧ tzPaired s.output = true

end Sys2Proof.Safety
end

