-- ==== Sys2Proof/Certificates/Slice0/Obligations.lean ====
section
/-! DEFINITION. The statements for the provers: what the spec's rules say the block does. -/

open Sys2Proof Sys2Proof.Machine Sys2Proof.Safety

/-! ### Reset, encoding, selection -/

/-- The complete reset table: cursor 0 and all 37 cells Zero. These values are the spec's own decision D4
(notes/assumptions/2.md); the empty input and record are the model's (notes/assumptions/3.md). -/
def Obligations.ResetLeavesCursorZeroAndEveryCellZero : Prop :=
  State.reset.cursor.val = 0 ∧ allCells.length = 37 ∧ (∀ x ∈ allCells, State.reset.readCell x = some .zero) ∧
    State.reset.input = [] ∧ State.reset.output = []

/-- The four token codes: 0, 1, 2 are the bit tokens, each carrying the trit of its code, and 3 is the marker. The
marker's code is the spec's decision D1 (notes/assumptions/11.md). -/
def Obligations.TokenCodesAreAllAssignedOneToOne : Prop :=
  Token.ofCode 0 = .bit .zero ∧ Token.ofCode 1 = .bit .one ∧ Token.ofCode 2 = .bit .invalid ∧
    Token.ofCode 3 = .mark ∧ (∀ t : Token, Token.ofCode t.code = t) ∧ (∀ c : TokCode, (Token.ofCode c).code = c)

/-- R64: MARK is selected whatever the cursor, and for a bit token the operation is selected by the cursor alone,
the trit being its operand. -/
def Obligations.OperationIsSelectedByTokenKindAndCursor : Prop :=
  (∀ c, select .mark c = .mark) ∧
  (∀ c v, (select (.bit v) c).token = .bit v) ∧
  (∀ c v w, mnemonic (select (.bit v) c) = mnemonic (select (.bit w) c) ∧
    (select (.bit v) c).cursors = (select (.bit w) c).cursors)

/-- The selection table: the operation of a bit token is that of the one row whose cursor range holds the cursor.
The row of cursor 60 is the spec's decision D6 (notes/assumptions/9.md). -/
def Obligations.BitTokenSelectsTheOneRowOfItsCursor : Prop :=
  ∀ (c : Cursor) (v : Trit), ∃ r ∈ bitRows, r.lo ≤ c.val ∧ c.val ≤ r.hi ∧ mnemonic (select (.bit v) c) = r.name ∧
    ∀ r' ∈ bitRows, r'.lo ≤ c.val → c.val ≤ r'.hi → r' = r

/-- Decoding and encoding agree on every well-formed instruction and every selector word: the words that decode to
an instruction are exactly its encodings. The layout of the word is the model's (notes/assumptions/6.md). -/
def Obligations.DecodeAndEncodeAgree : Prop :=
  ∀ i : Instr, i.wellFormed = true →
    decodeWord (encode i) = .ok i ∧ ∀ w : SelWord, decodeWord w = .ok i ↔ w ∈ encodings i

/-- Every word decodes to a well-formed instruction or is rejected, and it is rejected exactly when its cursor
field is 61, 62 or 63 (30_encoding.md: values the cursor never holds, by decision D5, notes/assumptions/8.md; layout:
notes/assumptions/6.md). -/
def Obligations.DecodedInstructionsAreWellFormed : Prop :=
  ∀ w : SelWord, (∀ i, decodeWord w = .ok i → i.wellFormed = true) ∧
    (decodeWord w = .error .cursorUnreachable ↔ 61 * 4 ≤ w.toNat)

/-- A few words written out from the token codes and cursor values of the selection table (layout:
notes/assumptions/6.md). That code 3 is MARK is the spec's decision D1 (11.md), that cursor 60 is OVERRUN its D6 (9.md),
that cursor 57 stores `YEAR[7]` its D12 (14.md), that cursor 61 is out of range its D5 (8.md). -/
def Obligations.SampleWordsDecodeAsTheTableSays : Prop :=
  decodeWord 0b00000000#8 = .ok (.start .zero) ∧ decodeWord 0b00000011#8 = .ok .mark ∧
    decodeWord 0b01000101#8 = .ok (.stz1 .one) ∧ decodeWord 0b01101110#8 = .ok (.smin 6 .invalid) ∧
    decodeWord 0b10110001#8 = .ok (.swdayl .one) ∧ decodeWord 0b11100101#8 = .ok (.syear 7 .one) ∧
    decodeWord 0b11110000#8 = .ok (.overrun .zero) ∧ decodeWord 0b11110100#8 = .error .cursorUnreachable

/-! ### The step -/

/-- A step whose cycle presents a token runs the operation selected by the token and by the cursor before the step,
at the state with that cycle consumed; exec itself moves the cursor. The pins and one token
a step are the spec's decisions D2 and D3 (notes/assumptions/11.md), placing a word is the model's (5.md, 6.md). -/
def Obligations.StepRunsTheSelectedOperation : Prop :=
  (∀ (s : State) (p : PortIn) (rest : List PortIn) (t : Token), s.input = p :: rest → p.rst = false →
    p.token = some t → step s = exec (select t s.cursor) { s with input := rest }) ∧
  (∀ (i : Instr) (nbits w : Nat) (s : State), decodeTableWord nbits w = some i →
    step (s.withFetchWord nbits w) = exec i { s.withFetchWord nbits w with input := s.input })

/-- A cycle without a valid token changes nothing of the block and emits nothing, and the end of the input causes
no change (30_encoding.md section 2, the port-level rendering: decisions D2 and D3, notes/assumptions/11.md; end of
input: decision D15, notes/assumptions/23.md, 4.md). -/
def Obligations.NothingHappensWithoutAToken : Prop :=
  (∀ (s : State) (p : PortIn) (rest : List PortIn), s.input = p :: rest → p.rst = false → p.tokValid = false →
    step s = .next { s with input := rest }) ∧
  (∀ s : State, s.input = [] → step s = .next s)

/-- A reset cycle leaves the block in the reset state whatever it held and whatever token the cycle presents, and
emits nothing (decision D16, notes/assumptions/21.md; the pins: decision D2, 11.md; the reset values: D4, 2.md). -/
def Obligations.ResetCycleRestoresTheResetState : Prop :=
  ∀ (s : State) (p : PortIn) (rest : List PortIn), s.input = p :: rest → p.rst = true →
    ∃ t, step s = .next t ∧ sameBlock t State.reset ∧ t.input = rest ∧ t.output = s.output

/-- Every step completes, and so does every run: no state faults and no state refuses. -/
def Obligations.EveryStepCompletes : Prop :=
  (∀ s : State, ∃ t, step s = .next t) ∧ ∀ (k : Nat) (s : State), safeRun k s

/-- How a step moves the cursor: a marker sets it to 0, a bit token advances it by one and holds it at 60, a cycle
without a token leaves it. Holding at 60 is the spec's decision D5 (notes/assumptions/8.md), the pins are its D2
(11.md). -/
def Obligations.CursorAdvancesOnBitsAndRestartsAtMarkers : Prop :=
  ∀ (s : State) (p : PortIn) (rest : List PortIn), s.input = p :: rest → p.rst = false →
    ∃ t, step s = .next t ∧ t.input = rest ∧ t.cursor.val =
      match p.token with
      | none => s.cursor.val
      | some .mark => 0
      | some (.bit _) => min (s.cursor.val + 1) 60

/-! ### BCD and parity -/

/-- R81: `decode` is the sum of the weights 1, 2, 4, 8, 10, 20, 40, 80 over the cells that hold One. -/
def Obligations.BcdDecodeIsTheSumOfTheWeightsOfOneCells : Prop :=
  ∀ cells : List Trit, 1 ≤ cells.length → cells.length ≤ 8 →
    bcdDecode cells = ∑ i ∈ Finset.range cells.length,
      if cells[i]? = some .one then ([1, 2, 4, 8, 10, 20, 40, 80] : List Nat)[i]?.getD 0 else 0

/-- R82, R83, R84: `popcount` counts the indices whose cell holds One, `lnot` is 1 for Zero and 0 otherwise, and the
check fails exactly when the remainder of the count equals `lnot` of the parity bit. That `lnot` of Invalid is 0 is
the spec's resolution of conflicts C2 and C3 (notes/assumptions/10.md). -/
def Obligations.ParityFailIsTheLiteralFormula : Prop :=
  (∀ cells : List Trit,
    popcount cells = ((Finset.range cells.length).filter fun i => cells[i]? = some .one).card) ∧
  lnot .zero = 1 ∧ lnot .one = 0 ∧ lnot .invalid = 0 ∧
  (∀ (cells : List Trit) (p : Trit), parityFail cells p = true ↔ popcount cells % 2 = lnot p)

/-- The truth table of the parity check. The row of an Invalid parity bit follows the spec's resolution of
conflict C2 (notes/assumptions/10.md). -/
def Obligations.ParityFailTruthTable : Prop :=
  ∀ cells : List Trit,
    (parityFail cells .zero = true ↔ Odd (cells.count .one)) ∧
    (parityFail cells .one = true ↔ Even (cells.count .one)) ∧
    (parityFail cells .invalid = true ↔ Even (cells.count .one))

/-- An Invalid cell inside a field counts exactly as a Zero cell, in the decoder and in the checker; an Invalid
parity bit does not count as a Zero one (conflict C2, notes/assumptions/10.md). -/
def Obligations.InvalidFieldCellsCountAsZero : Prop :=
  ∀ cells : List Trit,
    let blanked := cells.map fun v => if v = .invalid then .zero else v
    bcdDecode blanked = bcdDecode cells ∧ popcount blanked = popcount cells ∧
      (∀ p, parityFail blanked p = parityFail cells p) ∧
      parityFail cells .invalid ≠ parityFail cells .zero

/-- The range of `decode` on each buffer: 0 exactly when no cell holds One, the greatest value exactly when every
cell does. -/
def Obligations.DecodedFieldRanges : Prop :=
  ∀ (s : State) (b : Buf),
    bcdDecode (s.buf b) ≤ bufMax b ∧ (bcdDecode (s.buf b) = bufMax b ↔ ∀ v ∈ s.buf b, v = .one) ∧
      (bcdDecode (s.buf b) = 0 ↔ ∀ v ∈ s.buf b, v ≠ .one)

/-! ### Operations at cursor 0 to 20 -/

/-- START warns unless its bit is Zero, TMARK unless it is One; neither changes anything else. That Invalid warns is
the spec's decision D18 (notes/assumptions/12.md). -/
def Obligations.FixedBitsWarnUnlessRight : Prop :=
  ∀ (v : Trit) (s : State),
    select (.bit v) 0 = .start v ∧ select (.bit v) 20 = .tmark v ∧
    exec (.start v) s = .next { s with
      cursor := nextCursor s.cursor
      output := s.output ++ if v = .zero then [] else [.wStart] } ∧
    exec (.tmark v) s = .next { s with
      cursor := nextCursor s.cursor
      output := s.output ++ if v = .one then [] else [.wTmark] }

/-- WX echoes its trit at every cursor 1 to 14 and keeps nothing. That the event carries the trit is the spec's
decision D17 (notes/assumptions/15.md). -/
def Obligations.WeatherBitsAreEchoedAndNotKept : Prop :=
  ∀ (v : Trit) (s : State),
    (∀ c : Cursor, 1 ≤ c.val → c.val ≤ 14 → select (.bit v) c = .wx v) ∧
    exec (.wx v) s = .next { s with cursor := nextCursor s.cursor, output := s.output ++ [.wx v] }

/-- R102: CALL, the bit token at cursor 15, echoes its trit for every value and writes no cell. That the
event carries the trit, Invalid included, is the spec's decision D17 (notes/assumptions/15.md). -/
def Obligations.CallBitIsEchoed : Prop :=
  ∀ (v : Trit) (s : State),
    select (.bit v) 15 = .call v ∧
    exec (.call v) s = .next { s with cursor := nextCursor s.cursor, output := s.output ++ [.call v] }

/-- DSTANN and LEAPANN announce only if One, and change nothing else. That Invalid does not announce is the spec's
decision D18 (notes/assumptions/12.md). -/
def Obligations.AnnouncementsOnlyIfOne : Prop :=
  ∀ (v : Trit) (s : State),
    select (.bit v) 16 = .dstann v ∧ select (.bit v) 19 = .leapann v ∧
    exec (.dstann v) s = .next { s with
      cursor := nextCursor s.cursor
      output := s.output ++ if v = .one then [.dstAnn] else [] } ∧
    exec (.leapann v) s = .next { s with
      cursor := nextCursor s.cursor
      output := s.output ++ if v = .one then [.leapAnn] else [] }

/-- R104, R105: STZ1 and STZ2, the bit tokens at cursor 17 and 18, store their trit unchanged and emit nothing; no
other operation writes that flag. -/
def Obligations.TimezoneFlagsAreStoredByOneOperationEach : Prop :=
  (∀ (v : Trit) (s : State),
    select (.bit v) 17 = .stz1 v ∧ select (.bit v) 18 = .stz2 v ∧
    exec (.stz1 v) s = .next { s with cursor := nextCursor s.cursor, tz1 := v } ∧
    exec (.stz2 v) s = .next { s with cursor := nextCursor s.cursor, tz2 := v }) ∧
  (∀ (i : Instr) (s t : State), exec i s = .next t →
    ((∀ v, i ≠ .stz1 v) → t.tz1 = s.tz1) ∧ ((∀ v, i ≠ .stz2 v) → t.tz2 = s.tz2))

/-! ### Operations at cursor 21 to 35 -/

/-- R120: SMIN, the bit token at cursor 21 to 27, stores its trit unchanged in the one cell `MIN[c - 21]` and emits
nothing; no other operation writes MIN, so a marker leaves the cells not reached as they were. -/
def Obligations.MinuteBitsAreStored : Prop :=
  (∀ (c : Cursor) (v : Trit), 21 ≤ c.val → c.val ≤ 27 → select (.bit v) c = .smin (c.val - 21) v) ∧
  (∀ (i : Nat) (v : Trit) (s : State), i < 7 → ∃ t, exec (.smin i v) s = .next t ∧
    writesOnly s t (.buf .min i) v ∧ t.cursor = nextCursor s.cursor ∧ t.input = s.input ∧ t.output = s.output) ∧
  (∀ (i : Instr) (s t : State), (∀ n v, i ≠ .smin n v) → exec i s = .next t → t.min = s.min)

/-- R121: PMIN, the bit token at cursor 28, warns exactly when the count of One cells of MIN is odd under a parity
bit Zero or even under any other, and changes no cell; fed seven bits from cursor 21 it judges those seven. An Invalid
parity bit follows the spec's resolution of conflict C2 (notes/assumptions/10.md). -/
def Obligations.MinuteParityIsChecked : Prop :=
  (∀ (v : Trit) (s : State),
    select (.bit v) 28 = .pmin v ∧
    exec (.pmin v) s = .next { s with
      cursor := nextCursor s.cursor
      output := s.output ++ parityEvents s.min.toList v .wParMin }) ∧
  (∀ (s : State) (bits : Vector Trit 7) (v : Trit) (rest : List PortIn), s.cursor.val = 21 →
    s.input = bitCycles (bits.toList ++ [v]) ++ rest →
    ∃ t : State, runSteps 8 s = .next t ∧ t.cursor.val = 29 ∧ t.min = bits ∧ t.input = rest ∧
      t.output = s.output ++ parityEvents bits.toList v .wParMin)

/-- R122: SHOUR, the bit token at cursor 29 to 34, stores its trit unchanged in the one cell `HOUR[c - 29]` and
emits nothing; no other operation writes HOUR. -/
def Obligations.HourBitsAreStored : Prop :=
  (∀ (c : Cursor) (v : Trit), 29 ≤ c.val → c.val ≤ 34 → select (.bit v) c = .shour (c.val - 29) v) ∧
  (∀ (i : Nat) (v : Trit) (s : State), i < 6 → ∃ t, exec (.shour i v) s = .next t ∧
    writesOnly s t (.buf .hour i) v ∧ t.cursor = nextCursor s.cursor ∧ t.input = s.input ∧ t.output = s.output) ∧
  (∀ (i : Instr) (s t : State), (∀ n v, i ≠ .shour n v) → exec i s = .next t → t.hour = s.hour)

/-- R123: PHOUR, the bit token at cursor 35, warns exactly when the parity of HOUR fails, and changes no cell; fed
six bits from cursor 29 it judges those six. An Invalid parity bit follows conflict C2 (notes/assumptions/10.md). -/
def Obligations.HourParityIsChecked : Prop :=
  (∀ (v : Trit) (s : State),
    select (.bit v) 35 = .phour v ∧
    exec (.phour v) s = .next { s with
      cursor := nextCursor s.cursor
      output := s.output ++ parityEvents s.hour.toList v .wParHour }) ∧
  (∀ (s : State) (bits : Vector Trit 6) (v : Trit) (rest : List PortIn), s.cursor.val = 29 →
    s.input = bitCycles (bits.toList ++ [v]) ++ rest →
    ∃ t : State, runSteps 7 s = .next t ∧ t.cursor.val = 36 ∧ t.hour = bits ∧ t.input = rest ∧
      t.output = s.output ++ parityEvents bits.toList v .wParHour)

/-! ### Operations at cursor 36 to 60 -/

/-- SDAY, SWDAY, SMON and SYEAR store their trit unchanged in one cell and emit nothing; no other operation (but
SWDAYL for the weekday) writes those buffers. The offsets are the spec's decision D12 (notes/assumptions/14.md). -/
def Obligations.DateBitsAreStored : Prop :=
  (∀ (c : Cursor) (v : Trit),
    (36 ≤ c.val → c.val ≤ 41 → select (.bit v) c = .sday (c.val - 36) v) ∧
    (42 ≤ c.val → c.val ≤ 43 → select (.bit v) c = .swday (c.val - 42) v) ∧
    (45 ≤ c.val → c.val ≤ 49 → select (.bit v) c = .smon (c.val - 45) v) ∧
    (50 ≤ c.val → c.val ≤ 57 → select (.bit v) c = .syear (c.val - 50) v)) ∧
  (∀ (i : Nat) (v : Trit) (s : State), i < 6 → ∃ t, exec (.sday i v) s = .next t ∧
    writesOnly s t (.buf .day i) v ∧ t.cursor = nextCursor s.cursor ∧ t.input = s.input ∧ t.output = s.output) ∧
  (∀ (i : Nat) (v : Trit) (s : State), i < 2 → ∃ t, exec (.swday i v) s = .next t ∧
    writesOnly s t (.buf .wday i) v ∧ t.cursor = nextCursor s.cursor ∧ t.input = s.input ∧ t.output = s.output) ∧
  (∀ (i : Nat) (v : Trit) (s : State), i < 5 → ∃ t, exec (.smon i v) s = .next t ∧
    writesOnly s t (.buf .mon i) v ∧ t.cursor = nextCursor s.cursor ∧ t.input = s.input ∧ t.output = s.output) ∧
  (∀ (i : Nat) (v : Trit) (s : State), i < 8 → ∃ t, exec (.syear i v) s = .next t ∧
    writesOnly s t (.buf .year i) v ∧ t.cursor = nextCursor s.cursor ∧ t.input = s.input ∧ t.output = s.output) ∧
  (∀ (i : Instr) (s t : State), exec i s = .next t →
    ((∀ n v, i ≠ .sday n v) → t.day = s.day) ∧
    ((∀ n v, i ≠ .swday n v) → (∀ v, i ≠ .swdayl v) → t.wday = s.wday) ∧
    ((∀ n v, i ≠ .smon n v) → t.mon = s.mon) ∧ ((∀ n v, i ≠ .syear n v) → t.year = s.year))

/-- SWDAYL stores `WDAY[2]` and then emits the weekday number of all three cells, the new one included. The order is
the spec's decision D11 (notes/assumptions/13.md). -/
def Obligations.LastWeekdayBitEmitsTheNumber : Prop :=
  ∀ (v : Trit) (s : State),
    select (.bit v) 44 = .swdayl v ∧
    exec (.swdayl v) s = .next { s with
      cursor := nextCursor s.cursor
      wday := s.wday.set 2 v
      output := s.output ++ [.weekday ((if s.wday[0] = .one then 1 else 0) + (if s.wday[1] = .one then 2 else 0)
        + (if v = .one then 4 else 0))] }

/-- R136: PDATE, the bit token at cursor 58, checks the parity of the 22 date cells in the order DAY, WDAY, MON, YEAR
and changes no cell; fed 22 bits from cursor 36 it judges those 22. An Invalid parity bit follows conflict C2
(notes/assumptions/10.md), the offsets decision D12 (14.md), the weekday's order decision D11 (13.md). -/
def Obligations.DateParityIsChecked : Prop :=
  (∀ (v : Trit) (s : State),
    select (.bit v) 58 = .pdate v ∧
    exec (.pdate v) s = .next { s with
      cursor := nextCursor s.cursor
      output := s.output ++
        parityEvents (s.day.toList ++ s.wday.toList ++ s.mon.toList ++ s.year.toList) v .wParDate }) ∧
  (∀ (s : State) (d : Vector Trit 6) (w : Vector Trit 3) (m : Vector Trit 5) (y : Vector Trit 8) (v : Trit)
    (rest : List PortIn), s.cursor.val = 36 →
    s.input = bitCycles (d.toList ++ w.toList ++ m.toList ++ y.toList ++ [v]) ++ rest →
    ∃ t : State, runSteps 23 s = .next t ∧ t.cursor.val = 59 ∧ t.day = d ∧ t.wday = w ∧ t.mon = m ∧ t.year = y ∧
      t.input = rest ∧ t.output = s.output ++ [.weekday (bcdDecode w.toList)] ++
        parityEvents (d.toList ++ w.toList ++ m.toList ++ y.toList) v .wParDate)

/-- R137: LEAPNOW is the bit token at cursor 59 and at no other; it emits one notice for every value of its bit,
writes no cell, and leaves the cursor at 60 (conflict C4 and decision D5, notes/assumptions/8.md). -/
def Obligations.LeapSecondNoticeIsUnconditional : Prop :=
  (∀ (v : Trit) (s : State),
    select (.bit v) 59 = .leapnow v ∧
    exec (.leapnow v) s = .next { s with cursor := nextCursor s.cursor, output := s.output ++ [.leapNow] }) ∧
  (∀ (t : Token) (c : Cursor) (w : Trit), select t c = .leapnow w → c.val = 59) ∧
  (∀ c : Cursor, c.val = 59 → (nextCursor c).val = 60)

/-- OVERRUN emits nothing and writes no cell, and at its own cursor 60 the state after it is the state before it.
The operation is the spec's decision D6 (notes/assumptions/9.md). -/
def Obligations.OverrunChangesNothing : Prop :=
  ∀ (v : Trit) (s : State),
    select (.bit v) 60 = .overrun v ∧
    exec (.overrun v) s = .next { s with cursor := nextCursor s.cursor } ∧
    (s.cursor.val = 60 → exec (.overrun v) s = .next s)

/-- From cursor 60 any number of further bit tokens is ignored without an event (decision D6, notes/assumptions/9.md). -/
def Obligations.OverlongMinuteIsIgnored : Prop :=
  ∀ (bits : List Trit) (s : State) (rest : List PortIn), s.cursor.val = 60 → s.input = bitCycles bits ++ rest →
    runSteps bits.length s = .next { s with input := rest }

/-! ### The minute boundary -/

/-- MARK, at every cursor, emits the warning of the flag pair if it has one, then the frame decoded from the five
buffers as they stand with the offset of the pair, and sets the cursor to 0; nothing else changes. The order of
the two events and the reading of Invalid flags are the spec's decisions D8 and D18 (notes/assumptions/13.md,
12.md), the year with nothing added its D10 (15.md). -/
def Obligations.MarkEmitsTheFrameOfTheCells : Prop :=
  ∀ s : State, exec .mark s = .next { s with
    cursor := 0
    output := s.output ++ tzEvents s.tz1 s.tz2 ++ [.frame
      { year := bcdDecode s.year.toList, month := bcdDecode s.mon.toList, day := bcdDecode s.day.toList,
        hour := bcdDecode s.hour.toList, minute := bcdDecode s.min.toList,
        tzOffset := tzOffsetOf s.tz1 s.tz2 }] }

/-- The nine flag pairs: offset 2 for (One, Zero), 1 for (Zero, One), and 0 with the warning for every other pair
(decision D18 for the pairs with Invalid, notes/assumptions/12.md). -/
def Obligations.TimezoneTableIsTheNineRows : Prop :=
  resolveTz .one .zero = (2, false) ∧ resolveTz .zero .one = (1, false) ∧
    ∀ a b : Trit, ¬(a = .one ∧ b = .zero) → ¬(a = .zero ∧ b = .one) → resolveTz a b = (0, true)

/-- R153: MARK clears nothing: after it every cell holds what it held before, and the cursor is 0. -/
def Obligations.MarkClearsNoCell : Prop :=
  ∀ s : State, ∃ t, exec .mark s = .next t ∧ t.cursor.val = 0 ∧ ∀ x, t.readCell x = s.readCell x

/-- R198: `n` markers in a row emit `n` times the same events; a line source turns `n` empty lines into `n` markers. That
`W_TZ` precedes the frame is the spec's decision D8 (notes/assumptions/13.md), and that a pair with an Invalid flag
gives offset 0 with the warning is its decision D18 (notes/assumptions/12.md). -/
def Obligations.RepeatedMarkersRepeatTheFrame : Prop :=
  (∀ n : Nat, captureInput (List.replicate n []) = List.replicate n (PortIn.ofToken .mark)) ∧
  ∀ (n : Nat) (s : State) (rest : List PortIn),
    s.input = List.replicate n (PortIn.ofToken .mark) ++ rest →
    ∃ t : State, runSteps n s = .next t ∧ t.input = rest ∧ (∀ x, t.readCell x = s.readCell x) ∧
      t.output = s.output ++ (List.replicate n (tzEvents s.tz1 s.tz2 ++
        [.frame (s.frameResult (tzOffsetOf s.tz1 s.tz2))])).flatten

/-- A marker as the first token after reset emits `W_TZ` and a frame of zeros in this order (decisions D4, D21, D8 and
D10; notes/assumptions/2.md, 23.md, 13.md, 15.md). -/
def Obligations.FirstFrameFromResetIsZeros : Prop :=
  ∀ rest : List PortIn, ∃ t, step { State.reset with input := PortIn.ofToken .mark :: rest } = .next t ∧
    t.output = [.wTz, .frame { year := 0, month := 0, day := 0, hour := 0, minute := 0, tzOffset := 0 }] ∧
    sameBlock t State.reset

/-! ### Whole-machine rules -/

/-- The storage map: a bit token writes the one cell whose position is the cursor, with its own trit, or none; a
marker writes none; and the events of a step depend on no cell outside those the map says it reads. The offsets of
four buffers are the spec's decision D12 (notes/assumptions/14.md). -/
def Obligations.StorageMapIsEveryAccess : Prop :=
  (∀ (s : State) (v : Trit) (rest : List PortIn), s.input = PortIn.ofToken (.bit v) :: rest →
    ∃ t, step s = .next t ∧ ∀ x : Cell, t.readCell x =
      if x ∈ allCells ∧ cellPosition x = s.cursor.val then some v else s.readCell x) ∧
  (∀ (s : State) (rest : List PortIn), s.input = PortIn.ofToken .mark :: rest →
    ∃ t, step s = .next t ∧ ∀ x : Cell, t.readCell x = s.readCell x) ∧
  (∀ (k : Token) (s s' : State) (rest rest' : List PortIn), s.input = PortIn.ofToken k :: rest →
    s'.input = PortIn.ofToken k :: rest' → s.cursor = s'.cursor →
    (∀ x ∈ cellsRead k s.cursor.val, s.readCell x = s'.readCell x) → s.stepEvents = s'.stepEvents)

/-- No cell steers the block: from two states with the same cursor and the same input, a step leaves the same cursor,
and every cell that held the same trit in both still does. -/
def Obligations.CellsDoNotSteerTheBlock : Prop :=
  ∀ s s' : State, s.cursor = s'.cursor → s.input = s'.input →
    ∃ t t', step s = .next t ∧ step s' = .next t' ∧ t.cursor = t'.cursor ∧ t.input = t'.input ∧
      ∀ x, s.readCell x = s'.readCell x → t.readCell x = t'.readCell x

/-- There is no hidden state: two states with equal cursor and equal cells emit equal events for every continuation
of the input. -/
def Obligations.EqualCellsGiveEqualEventsForever : Prop :=
  ∀ (k : Nat) (s s' : State), sameBlock s s' → s.input = s'.input →
    ∃ (t t' : State) (es : List Event), runSteps k s = .next t ∧ runSteps k s' = .next t' ∧
      sameBlock t t' ∧ t.output = s.output ++ es ∧ t'.output = s'.output ++ es

/-- A step emits at most two events, two only as `W_TZ` followed by a frame, and the two output slots carry exactly
those events in that order, no number truncated (decisions D2, D7, D8, D10; notes/assumptions/11.md, 13.md, 15.md). -/
def Obligations.OutputSlotsCarryEveryEvent : Prop :=
  ∀ s : State, (∃ t, step s = .next t ∧ t.output = s.output ++ s.stepEvents) ∧
    s.portOut.events = s.stepEvents ∧ s.stepEvents.length ≤ 2 ∧
    (s.stepEvents.length = 2 → ∃ f, s.stepEvents = [.wTz, .frame f])

/-- The record invariant, kept by every step: every number reported lies in the range of its field, every `W_TZ` is
directly followed by its frame, and a frame has offset 0 exactly when it has that warning. That `W_TZ` stands directly
before its frame is the spec's decision D8 (notes/assumptions/13.md), that a pair with an Invalid flag has the warning
its D18 (12.md), that the year is the bare year of the century its D10 (15.md). -/
def Obligations.StepKeepsTheRecordInvariant : Prop :=
  ∀ s t : State, recordOk s → step s = .next t → recordOk t

/-- The record invariant holds after reset, when the record is empty (the model's choice, notes/assumptions/3.md). -/
def Obligations.RecordInvariantHoldsAtReset : Prop := recordOk State.reset

/-! ### Minutes -/

/-- A minute cut short after `k` bit tokens: every cell at a position below `k` is new, every other cell is from
before, and the cursor is `k` (offsets: decision D12; cursor 60: decision D5). -/
def Obligations.CutMinuteMixesNewAndOldCells : Prop :=
  ∀ (bits : List Trit) (s : State) (rest : List PortIn), s.cursor.val = 0 → bits.length ≤ 60 →
    s.input = bitCycles bits ++ rest →
    ∃ t : State, runSteps bits.length s = .next t ∧ t.cursor.val = bits.length ∧ t.input = rest ∧
      ∀ x ∈ allCells, t.readCell x =
        if cellPosition x < bits.length then bits[cellPosition x]? else s.readCell x

/-- A whole minute of 59 bit tokens and its marker, from any state at cursor 0: the events are those that the bits
alone determine, whatever the cells held before (decisions D8, D10, D11, D12, D17, D18 and conflict C2 as in the
statements of the operations). -/
def Obligations.WholeMinuteEventsAreTheBitsAlone : Prop :=
  ∀ (bits : Vector Trit 59) (s : State) (rest : List PortIn), s.cursor.val = 0 →
    s.input = bitCycles bits.toList ++ PortIn.ofToken .mark :: rest →
    ∃ t : State, runSteps 60 s = .next t ∧ t.cursor.val = 0 ∧ t.input = rest ∧
      t.output = s.output ++ minuteEvents bits.toList

/-- The source's testable property of a valid frame: with start bit Zero, time marker One, correct parities and a
valid flag pair, a whole minute emits no warning, and exactly one frame, last, with the decoded values. Its place
is the spec's decision D8 (notes/assumptions/13.md), the offsets of four buffers its D12 (14.md), the bare year its D10 (15.md). -/
def Obligations.ValidMinuteGivesItsFrameWithoutWarning : Prop :=
  ∀ (bits : Vector Trit 59) (s : State) (rest : List PortIn), s.cursor.val = 0 →
    s.input = bitCycles bits.toList ++ PortIn.ofToken .mark :: rest →
    bits[0] = .zero → bits[20] = .one →
    Even ((slice bits.toList 21 8).count .one) → bits[28] ≠ .invalid →
    Even ((slice bits.toList 29 7).count .one) → bits[35] ≠ .invalid →
    Even ((slice bits.toList 36 23).count .one) → bits[58] ≠ .invalid →
    (bits[17] = .one ∧ bits[18] = .zero) ∨ (bits[17] = .zero ∧ bits[18] = .one) →
    ∃ (t : State) (es : List Event), runSteps 60 s = .next t ∧
      t.output = s.output ++ es ++ [.frame (minuteFrame bits.toList)] ∧ ∀ e ∈ es, e.cls = .informational

/-! ### The host's functions beside the block -/

/-- R71: a line holding nothing is the marker, a line whose first character is `0` or `1` is that bit, and any other
line is the invalid bit; only the first character is looked at. -/
def Obligations.LineToTokenByFirstCharacter : Prop :=
  lineToken [] = .mark ∧ ∀ (c : Char) (rest : List Char),
    (c = '0' → lineToken (c :: rest) = .bit .zero) ∧ (c = '1' → lineToken (c :: rest) = .bit .one) ∧
    (c ≠ '0' → c ≠ '1' → lineToken (c :: rest) = .bit .invalid)

/-- The reference rendering on the source's examples, and two digits for every field up to 99. Above 99 the text is an
open parameter of the sink (decision D14, notes/assumptions/20.md). -/
def Obligations.RenderingPadsToTwoDigits : Prop :=
  (∀ n : Nat, n ≤ 99 → renderField n = [Char.ofNat (48 + n / 10), Char.ofNat (48 + n % 10)]) ∧
    renderFrame { year := 26, month := 11, day := 8, hour := 21, minute := 42, tzOffset := 1 } =
      "2026-11-08T21:42+01:00".toList

/-! ### The block with its line source -/

/-- One line through the block with its line source: the source's notice exactly for an InvalidBit line (neither empty
nor starting with `0` or `1`), then the block's events of that line's token; the block itself steps as if the
notice were not there. The notice is the source's and not the block's by the spec's resolution of conflict C8 and its
decision D9 (notes/assumptions/15.md); one line a step is the model's (notes/assumptions/24.md); that the
end of the lines changes nothing is decision D15 (notes/assumptions/23.md). -/
def Obligations.InvalidLineNoticePrecedesTheBlocksEvents : Prop :=
  (∀ y : System, y.lines = [] → y.step = .next y) ∧
  ∀ (y : System) (line : List Char) (rest : List (List Char)), y.lines = line :: rest →
    ∃ (t : State) (es : List Event),
      step { y.block with input := PortIn.ofToken (lineToken line) :: y.block.input } = .next t ∧
      t.output = y.block.output ++ es ∧ t.input = y.block.input ∧
      y.step = .next
        { block := t
          lines := rest
          reports := y.reports ++
            (if line = [] ∨ line.head? = some '0' ∨ line.head? = some '1' then [] else [.invalidLine]) ++
            es.map .block }

/-- A whole capture through the block with its line source: one notice per InvalidBit line, and the block's own events
among the reports, in their order, are exactly those of the block alone on the capture's tokens (decision D9,
notes/assumptions/15.md, 24.md). -/
def Obligations.NoticesAreOnePerInvalidLineAndLeaveTheBlockAlone : Prop :=
  ∀ (lines : List (List Char)) (s : State), s.input = [] →
    ∃ (z : System) (t : State),
      System.run lines.length { block := s, lines := lines, reports := [] } = .next z ∧
      runSteps lines.length { s with input := captureInput lines } = .next t ∧
      z.block = t ∧ z.lines = [] ∧ t.output = s.output ++ z.reports.filterMap Report.event? ∧
      z.reports.count .invalidLine = (lines.filter fun l => lineToken l = .bit .invalid).length
end

