-- ==== Sys2Proof/Laws/Bcd.lean ====
section
/-! SUPPORT. The BCD decoder and the parity checker: what a caller may use in place of unfolding them. -/

namespace Sys2Proof.Laws

open Sys2Proof.Machine

@[simp] theorem weigh_nil_right (ws : List Nat) : weigh ws [] = 0 := by cases ws <;> rfl

@[simp] theorem weigh_nil_left (vs : List Trit) : weigh [] vs = 0 := rfl

@[simp] theorem weigh_cons (w : Nat) (ws : List Nat) (v : Trit) (vs : List Trit) :
    weigh (w :: ws) (v :: vs) = (if v = .one then w else 0) + weigh ws vs := rfl

/-- A decoded value never exceeds the sum of the weights (40_bcd_parity.md R87). -/
theorem weigh_le_sum (ws : List Nat) (vs : List Trit) : weigh ws vs ≤ ws.sum := by
  induction ws generalizing vs with
  | nil => simp
  | cons w ws ih =>
    cases vs with
    | nil => simp
    | cons v vs =>
      have := ih vs
      simp only [weigh_cons, List.sum_cons]
      split_ifs <;> omega

/-- `popcount` counts the One cells (R82). -/
theorem popcount_eq_count (vs : List Trit) : popcount vs = vs.count .one := by
  induction vs with
  | nil => rfl
  | cons v vs ih => cases v <;> simp [popcount, ih, Nat.add_comm]

/-- Counting over a concatenation (43_date_fields.md R136). -/
theorem popcount_append (vs ws : List Trit) : popcount (vs ++ ws) = popcount vs + popcount ws := by
  simp [popcount_eq_count]

end Sys2Proof.Laws
end

