-- ==== Sys2Proof/Laws/Decode.lean ====
section
/-! SUPPORT. Token codes and selection: the facts that later proofs cite in place of unfolding the decoder. -/

namespace Sys2Proof.Laws

open Sys2Proof.Machine

/-- A token is recovered from its code (30_encoding.md R60). -/
@[simp] theorem ofCode_code (t : Token) : Token.ofCode t.code = t := by
  rcases t with _ | _ | _ | _ <;> rfl

/-- A presented token is the token of its cycle. -/
@[simp] theorem token_ofToken (t : Token) : (PortIn.ofToken t).token = some t := by
  simp [PortIn.token, PortIn.ofToken]

@[simp] theorem rst_ofToken (t : Token) : (PortIn.ofToken t).rst = false := rfl

/-- MARK is selected at every cursor (R64). -/
@[simp] theorem select_mark (c : Cursor) : select .mark c = .mark := rfl

/-- A bit token never selects MARK (R64). -/
theorem select_bit_ne_mark (v : Trit) (c : Cursor) : select (.bit v) c ≠ .mark := by
  revert c
  cases v <;> decide

theorem packWord_toNat (t : TokCode) (c : Nat) : (packWord t c).toNat = c % 64 * 4 + t.toNat := by
  have ht := t.isLt
  rw [packWord, BitVec.toNat_append, ← Nat.shiftLeft_add_eq_or_of_lt ht]
  simp [Nat.shiftLeft_eq]

/-- The token field of a packed selector word. -/
@[simp] theorem tok_packWord (t : TokCode) (c : Nat) : SelWord.tok (packWord t c) = t := by
  have ht := t.isLt
  apply BitVec.eq_of_toNat_eq
  simp only [SelWord.tok, BitVec.extractLsb'_toNat, packWord_toNat, Nat.shiftRight_zero]
  omega

/-- The cursor field of a packed selector word. -/
@[simp] theorem cursorField_packWord (t : TokCode) (c : Nat) : SelWord.cursorField (packWord t c) = c % 64 := by
  have ht := t.isLt
  simp only [SelWord.cursorField, BitVec.extractLsb'_toNat, packWord_toNat, Nat.shiftRight_eq_div_pow]
  omega

end Sys2Proof.Laws
end

