-- ==== Sys2Proof/Laws/State.lean ====
section
/-! SUPPORT. The fields of a state after each update of Machine/Ops.lean: one lemma per field and update, so that no proof unfolds a record update. -/

namespace Sys2Proof.Machine

variable (s : State)

/-! `emit` -/

@[simp] theorem State.emit_cursor (e : Event) : (s.emit e).cursor = s.cursor := rfl
@[simp] theorem State.emit_min (e : Event) : (s.emit e).min = s.min := rfl
@[simp] theorem State.emit_hour (e : Event) : (s.emit e).hour = s.hour := rfl
@[simp] theorem State.emit_day (e : Event) : (s.emit e).day = s.day := rfl
@[simp] theorem State.emit_wday (e : Event) : (s.emit e).wday = s.wday := rfl
@[simp] theorem State.emit_mon (e : Event) : (s.emit e).mon = s.mon := rfl
@[simp] theorem State.emit_year (e : Event) : (s.emit e).year = s.year := rfl
@[simp] theorem State.emit_tz1 (e : Event) : (s.emit e).tz1 = s.tz1 := rfl
@[simp] theorem State.emit_tz2 (e : Event) : (s.emit e).tz2 = s.tz2 := rfl
@[simp] theorem State.emit_input (e : Event) : (s.emit e).input = s.input := rfl
@[simp] theorem State.emit_output (e : Event) : (s.emit e).output = s.output ++ [e] := rfl

/-! `emitIf` -/

@[simp] theorem State.emitIf_cursor (b : Bool) (e : Event) : (s.emitIf b e).cursor = s.cursor := rfl
@[simp] theorem State.emitIf_min (b : Bool) (e : Event) : (s.emitIf b e).min = s.min := rfl
@[simp] theorem State.emitIf_hour (b : Bool) (e : Event) : (s.emitIf b e).hour = s.hour := rfl
@[simp] theorem State.emitIf_day (b : Bool) (e : Event) : (s.emitIf b e).day = s.day := rfl
@[simp] theorem State.emitIf_wday (b : Bool) (e : Event) : (s.emitIf b e).wday = s.wday := rfl
@[simp] theorem State.emitIf_mon (b : Bool) (e : Event) : (s.emitIf b e).mon = s.mon := rfl
@[simp] theorem State.emitIf_year (b : Bool) (e : Event) : (s.emitIf b e).year = s.year := rfl
@[simp] theorem State.emitIf_tz1 (b : Bool) (e : Event) : (s.emitIf b e).tz1 = s.tz1 := rfl
@[simp] theorem State.emitIf_tz2 (b : Bool) (e : Event) : (s.emitIf b e).tz2 = s.tz2 := rfl
@[simp] theorem State.emitIf_input (b : Bool) (e : Event) : (s.emitIf b e).input = s.input := rfl
@[simp] theorem State.emitIf_output (b : Bool) (e : Event) : (s.emitIf b e).output = s.output ++ (if b then [e] else []) := rfl

/-! `advance` -/

@[simp] theorem State.advance_cursor : (s.advance).cursor = nextCursor s.cursor := rfl
@[simp] theorem State.advance_min : (s.advance).min = s.min := rfl
@[simp] theorem State.advance_hour : (s.advance).hour = s.hour := rfl
@[simp] theorem State.advance_day : (s.advance).day = s.day := rfl
@[simp] theorem State.advance_wday : (s.advance).wday = s.wday := rfl
@[simp] theorem State.advance_mon : (s.advance).mon = s.mon := rfl
@[simp] theorem State.advance_year : (s.advance).year = s.year := rfl
@[simp] theorem State.advance_tz1 : (s.advance).tz1 = s.tz1 := rfl
@[simp] theorem State.advance_tz2 : (s.advance).tz2 = s.tz2 := rfl
@[simp] theorem State.advance_input : (s.advance).input = s.input := rfl
@[simp] theorem State.advance_output : (s.advance).output = s.output := rfl

/-! `home` -/

@[simp] theorem State.home_cursor : (s.home).cursor = 0 := rfl
@[simp] theorem State.home_min : (s.home).min = s.min := rfl
@[simp] theorem State.home_hour : (s.home).hour = s.hour := rfl
@[simp] theorem State.home_day : (s.home).day = s.day := rfl
@[simp] theorem State.home_wday : (s.home).wday = s.wday := rfl
@[simp] theorem State.home_mon : (s.home).mon = s.mon := rfl
@[simp] theorem State.home_year : (s.home).year = s.year := rfl
@[simp] theorem State.home_tz1 : (s.home).tz1 = s.tz1 := rfl
@[simp] theorem State.home_tz2 : (s.home).tz2 = s.tz2 := rfl
@[simp] theorem State.home_input : (s.home).input = s.input := rfl
@[simp] theorem State.home_output : (s.home).output = s.output := rfl

/-! `setTz1` -/

@[simp] theorem State.setTz1_cursor (v : Trit) : (s.setTz1 v).cursor = s.cursor := rfl
@[simp] theorem State.setTz1_min (v : Trit) : (s.setTz1 v).min = s.min := rfl
@[simp] theorem State.setTz1_hour (v : Trit) : (s.setTz1 v).hour = s.hour := rfl
@[simp] theorem State.setTz1_day (v : Trit) : (s.setTz1 v).day = s.day := rfl
@[simp] theorem State.setTz1_wday (v : Trit) : (s.setTz1 v).wday = s.wday := rfl
@[simp] theorem State.setTz1_mon (v : Trit) : (s.setTz1 v).mon = s.mon := rfl
@[simp] theorem State.setTz1_year (v : Trit) : (s.setTz1 v).year = s.year := rfl
@[simp] theorem State.setTz1_tz1 (v : Trit) : (s.setTz1 v).tz1 = v := rfl
@[simp] theorem State.setTz1_tz2 (v : Trit) : (s.setTz1 v).tz2 = s.tz2 := rfl
@[simp] theorem State.setTz1_input (v : Trit) : (s.setTz1 v).input = s.input := rfl
@[simp] theorem State.setTz1_output (v : Trit) : (s.setTz1 v).output = s.output := rfl

/-! `setTz2` -/

@[simp] theorem State.setTz2_cursor (v : Trit) : (s.setTz2 v).cursor = s.cursor := rfl
@[simp] theorem State.setTz2_min (v : Trit) : (s.setTz2 v).min = s.min := rfl
@[simp] theorem State.setTz2_hour (v : Trit) : (s.setTz2 v).hour = s.hour := rfl
@[simp] theorem State.setTz2_day (v : Trit) : (s.setTz2 v).day = s.day := rfl
@[simp] theorem State.setTz2_wday (v : Trit) : (s.setTz2 v).wday = s.wday := rfl
@[simp] theorem State.setTz2_mon (v : Trit) : (s.setTz2 v).mon = s.mon := rfl
@[simp] theorem State.setTz2_year (v : Trit) : (s.setTz2 v).year = s.year := rfl
@[simp] theorem State.setTz2_tz1 (v : Trit) : (s.setTz2 v).tz1 = s.tz1 := rfl
@[simp] theorem State.setTz2_tz2 (v : Trit) : (s.setTz2 v).tz2 = v := rfl
@[simp] theorem State.setTz2_input (v : Trit) : (s.setTz2 v).input = s.input := rfl
@[simp] theorem State.setTz2_output (v : Trit) : (s.setTz2 v).output = s.output := rfl

/-! `consume` -/

@[simp] theorem State.consume_cursor (rest : List PortIn) : (s.consume rest).cursor = s.cursor := rfl
@[simp] theorem State.consume_min (rest : List PortIn) : (s.consume rest).min = s.min := rfl
@[simp] theorem State.consume_hour (rest : List PortIn) : (s.consume rest).hour = s.hour := rfl
@[simp] theorem State.consume_day (rest : List PortIn) : (s.consume rest).day = s.day := rfl
@[simp] theorem State.consume_wday (rest : List PortIn) : (s.consume rest).wday = s.wday := rfl
@[simp] theorem State.consume_mon (rest : List PortIn) : (s.consume rest).mon = s.mon := rfl
@[simp] theorem State.consume_year (rest : List PortIn) : (s.consume rest).year = s.year := rfl
@[simp] theorem State.consume_tz1 (rest : List PortIn) : (s.consume rest).tz1 = s.tz1 := rfl
@[simp] theorem State.consume_tz2 (rest : List PortIn) : (s.consume rest).tz2 = s.tz2 := rfl
@[simp] theorem State.consume_input (rest : List PortIn) : (s.consume rest).input = rest := rfl
@[simp] theorem State.consume_output (rest : List PortIn) : (s.consume rest).output = s.output := rfl

/-! `setCell`: the fields it never writes, and the six buffers. -/

@[simp] theorem State.setCell_cursor (b : Buf) (i : Nat) (v : Trit) : (s.setCell b i v).cursor = s.cursor := by
  cases b <;> rfl
@[simp] theorem State.setCell_min (b : Buf) (i : Nat) (v : Trit) :
    (s.setCell b i v).min = if b = .min then s.min.setIfInBounds i v else s.min := by
  cases b <;> rfl
@[simp] theorem State.setCell_hour (b : Buf) (i : Nat) (v : Trit) :
    (s.setCell b i v).hour = if b = .hour then s.hour.setIfInBounds i v else s.hour := by
  cases b <;> rfl
@[simp] theorem State.setCell_day (b : Buf) (i : Nat) (v : Trit) :
    (s.setCell b i v).day = if b = .day then s.day.setIfInBounds i v else s.day := by
  cases b <;> rfl
@[simp] theorem State.setCell_wday (b : Buf) (i : Nat) (v : Trit) :
    (s.setCell b i v).wday = if b = .wday then s.wday.setIfInBounds i v else s.wday := by
  cases b <;> rfl
@[simp] theorem State.setCell_mon (b : Buf) (i : Nat) (v : Trit) :
    (s.setCell b i v).mon = if b = .mon then s.mon.setIfInBounds i v else s.mon := by
  cases b <;> rfl
@[simp] theorem State.setCell_year (b : Buf) (i : Nat) (v : Trit) :
    (s.setCell b i v).year = if b = .year then s.year.setIfInBounds i v else s.year := by
  cases b <;> rfl
@[simp] theorem State.setCell_tz1 (b : Buf) (i : Nat) (v : Trit) : (s.setCell b i v).tz1 = s.tz1 := by
  cases b <;> rfl
@[simp] theorem State.setCell_tz2 (b : Buf) (i : Nat) (v : Trit) : (s.setCell b i v).tz2 = s.tz2 := by
  cases b <;> rfl
@[simp] theorem State.setCell_input (b : Buf) (i : Nat) (v : Trit) : (s.setCell b i v).input = s.input := by
  cases b <;> rfl
@[simp] theorem State.setCell_output (b : Buf) (i : Nat) (v : Trit) : (s.setCell b i v).output = s.output := by
  cases b <;> rfl

/-! `resetCycle` -/

@[simp] theorem State.resetCycle_input (rest : List PortIn) : (s.resetCycle rest).input = rest := rfl
@[simp] theorem State.resetCycle_output (rest : List PortIn) : (s.resetCycle rest).output = s.output := rfl
@[simp] theorem State.resetCycle_cursor (rest : List PortIn) : (s.resetCycle rest).cursor = 0 := rfl

/-! ### Reading cells after an update -/

@[simp] theorem State.readCell_emit (e : Event) (x : Cell) : (s.emit e).readCell x = s.readCell x := by
  rcases x with ⟨_ | _, _⟩ | _ <;> rfl

@[simp] theorem State.readCell_emitIf (b : Bool) (e : Event) (x : Cell) :
    (s.emitIf b e).readCell x = s.readCell x := by
  rcases x with ⟨_ | _, _⟩ | _ <;> rfl

@[simp] theorem State.readCell_advance (x : Cell) : s.advance.readCell x = s.readCell x := by
  rcases x with ⟨_ | _, _⟩ | _ <;> rfl

@[simp] theorem State.readCell_home (x : Cell) : s.home.readCell x = s.readCell x := by
  rcases x with ⟨_ | _, _⟩ | _ <;> rfl

@[simp] theorem State.readCell_consume (rest : List PortIn) (x : Cell) :
    (s.consume rest).readCell x = s.readCell x := by
  rcases x with ⟨_ | _, _⟩ | _ <;> rfl

theorem State.readCell_resetCycle (rest : List PortIn) (x : Cell) :
    (s.resetCycle rest).readCell x = State.reset.readCell x := by
  rcases x with ⟨_ | _, _⟩ | _ <;> rfl

theorem State.readCell_setTz1 (v : Trit) (x : Cell) :
    (s.setTz1 v).readCell x = if x = .tz1 then some v else s.readCell x := by
  rcases x with ⟨_ | _, _⟩ | _ <;> rfl

theorem State.readCell_setTz2 (v : Trit) (x : Cell) :
    (s.setTz2 v).readCell x = if x = .tz2 then some v else s.readCell x := by
  rcases x with ⟨_ | _, _⟩ | _ <;> rfl

/-- A buffer after a store: the stored buffer has one element replaced, the others stand. -/
theorem State.buf_setCell (b c : Buf) (i : Nat) (v : Trit) :
    (s.setCell b i v).buf c = if c = b then (s.buf b).set i v else s.buf c := by
  cases b <;> cases c <;> simp [State.buf, State.setCell]

/-- A store is read back at its own cell and nowhere else. -/
theorem State.readCell_setCell (b : Buf) (i : Nat) (v : Trit) (x : Cell) :
    (s.setCell b i v).readCell x =
      if x = .buf b i ∧ i < (s.buf b).length then some v else s.readCell x := by
  cases x with
  | tz1 => simp [State.readCell]
  | tz2 => simp [State.readCell]
  | buf c j =>
    simp only [State.readCell, State.buf_setCell, Cell.buf.injEq]
    by_cases h : c = b
    · subst h
      simp only [if_true, true_and, List.getElem?_set]
      by_cases hj : i = j
      · subst hj
        by_cases hl : i < (s.buf c).length <;> simp [hl]
      · simp [hj, Ne.symm hj]
    · simp [h]

/-! ### The buffers -/

@[simp] theorem State.buf_emit (e : Event) (b : Buf) : (s.emit e).buf b = s.buf b := by cases b <;> rfl
@[simp] theorem State.buf_emitIf (c : Bool) (e : Event) (b : Buf) : (s.emitIf c e).buf b = s.buf b := by
  cases b <;> rfl
@[simp] theorem State.buf_consume (rest : List PortIn) (b : Buf) : (s.consume rest).buf b = s.buf b := by
  cases b <;> rfl

end Sys2Proof.Machine
end

