-- ==== Sys2Proof/Laws/Exec.lean ====
section
/-! SUPPORT. What exec and step can do, said once: the cell an operation writes, the events it emits, and where the cursor goes. -/

namespace Sys2Proof.Laws

open Sys2Proof.Machine Sys2Proof.Safety

/-- `advance` adds one to the cursor and holds it at 60 (10_state.md R27). -/
@[simp] theorem nextCursor_val (c : Cursor) : (nextCursor c).val = min (c.val + 1) 60 := rfl

/-- Every buffer has its length in every state (10_state.md R22). -/
@[simp] theorem buf_length (s : State) (b : Buf) : (s.buf b).length = bufLen b := by
  cases b <;> simp [State.buf, bufLen]

/-- A cell of the block can be read in every state, and no other name can (R22, R24). -/
theorem readCell_isSome (s : State) (x : Cell) : (s.readCell x).isSome ↔ x ∈ allCells := by
  rcases x with ⟨b, i⟩ | _ | _
  · cases b <;> simp [State.readCell, allCells, bufCells, buf_length, bufLen]
  · simp [State.readCell, allCells]
  · simp [State.readCell, allCells]

/-- The cell an operation writes and the trit it writes there (20_memory.md R41), as a function of the operation. -/
def written : Instr → Option (Cell × Trit)
  | .stz1 v => some (.tz1, v)
  | .stz2 v => some (.tz2, v)
  | .smin i v => some (.buf .min i, v)
  | .shour i v => some (.buf .hour i, v)
  | .sday i v => some (.buf .day i, v)
  | .swday i v => some (.buf .wday i, v)
  | .swdayl v => some (.buf .wday 2, v)
  | .smon i v => some (.buf .mon i, v)
  | .syear i v => some (.buf .year i, v)
  | .mark => none
  | .start _ => none
  | .wx _ => none
  | .call _ => none
  | .dstann _ => none
  | .leapann _ => none
  | .tmark _ => none
  | .pmin _ => none
  | .phour _ => none
  | .pdate _ => none
  | .leapnow _ => none
  | .overrun _ => none

/-- The events of a conditional emission. -/
def eventIf (b : Bool) (e : Event) : List Event := if b then [e] else []

/-- The events an operation emits at a state, in order (60_exceptions.md R178). -/
def emitted : Instr → State → List Event
  | .start v, _ => eventIf (v != .zero) .wStart
  | .wx v, _ => [.wx v]
  | .call v, _ => [.call v]
  | .dstann v, _ => eventIf (v == .one) .dstAnn
  | .leapann v, _ => eventIf (v == .one) .leapAnn
  | .tmark v, _ => eventIf (v != .one) .wTmark
  | .pmin v, s => eventIf (parityFail (s.buf .min) v) .wParMin
  | .phour v, s => eventIf (parityFail (s.buf .hour) v) .wParHour
  | .swdayl v, s => [.weekday (bcdDecode ((s.buf .wday).set 2 v))]
  | .pdate v, s => eventIf (parityFail s.dateCells v) .wParDate
  | .leapnow _, _ => [.leapNow]
  | .mark, s =>
    (eventIf (resolveTz s.tz1 s.tz2).2 .wTz) ++ [.frame (s.frameResult (resolveTz s.tz1 s.tz2).1)]
  | .stz1 _, _ => []
  | .stz2 _, _ => []
  | .smin _ _, _ => []
  | .shour _ _, _ => []
  | .sday _ _, _ => []
  | .swday _ _, _ => []
  | .smon _ _, _ => []
  | .syear _ _, _ => []
  | .overrun _, _ => []

/-- The cells after an operation: the one it writes holds its trit, every other holds what it held. -/
def cellAfter (i : Instr) (s : State) (x : Cell) : Option Trit :=
  match written i with
  | some (y, v) => if x = y ∧ y ∈ allCells then some v else s.readCell x
  | none => s.readCell x

theorem readCell_setCell_after (s : State) (b : Buf) (i : Nat) (v : Trit) (x : Cell) :
    (s.setCell b i v).readCell x = if x = .buf b i ∧ .buf b i ∈ allCells then some v else s.readCell x := by
  rw [State.readCell_setCell]
  simp only [← readCell_isSome s]
  simp [State.readCell]

/-- Everything an operation can do: it answers a next state, consumes no input, moves the cursor as R27 says,
appends its events, and writes at most its one cell. -/
theorem exec_spec (i : Instr) (s : State) : ∃ t, exec i s = .next t ∧ t.input = s.input ∧
    t.cursor = (if i = .mark then 0 else nextCursor s.cursor) ∧ t.output = s.output ++ emitted i s ∧
    ∀ x, t.readCell x = cellAfter i s x := by
  cases i with
  | mark => exact ⟨_, rfl, rfl, rfl, by simp [emitted, eventIf], fun x => by simp [cellAfter, written]⟩
  | start v => exact ⟨_, rfl, rfl, rfl, by simp [emitted, eventIf], fun x => by simp [cellAfter, written]⟩
  | wx v => exact ⟨_, rfl, rfl, rfl, by simp [emitted], fun x => by simp [cellAfter, written]⟩
  | call v => exact ⟨_, rfl, rfl, rfl, by simp [emitted], fun x => by simp [cellAfter, written]⟩
  | dstann v => exact ⟨_, rfl, rfl, rfl, by simp [emitted, eventIf], fun x => by simp [cellAfter, written]⟩
  | leapann v => exact ⟨_, rfl, rfl, rfl, by simp [emitted, eventIf], fun x => by simp [cellAfter, written]⟩
  | tmark v => exact ⟨_, rfl, rfl, rfl, by simp [emitted, eventIf], fun x => by simp [cellAfter, written]⟩
  | pmin v => exact ⟨_, rfl, rfl, rfl, by simp [emitted, eventIf], fun x => by simp [cellAfter, written]⟩
  | phour v => exact ⟨_, rfl, rfl, rfl, by simp [emitted, eventIf], fun x => by simp [cellAfter, written]⟩
  | pdate v => exact ⟨_, rfl, rfl, rfl, by simp [emitted, eventIf], fun x => by simp [cellAfter, written]⟩
  | leapnow v => exact ⟨_, rfl, rfl, rfl, by simp [emitted], fun x => by simp [cellAfter, written]⟩
  | overrun v => exact ⟨_, rfl, rfl, rfl, by simp [emitted], fun x => by simp [cellAfter, written]⟩
  | stz1 v => exact ⟨_, rfl, rfl, rfl, by simp [emitted], fun x => by
      simp [cellAfter, written, State.readCell_setTz1, allCells]⟩
  | stz2 v => exact ⟨_, rfl, rfl, rfl, by simp [emitted], fun x => by
      simp [cellAfter, written, State.readCell_setTz2, allCells]⟩
  | smin n v => exact ⟨_, rfl, rfl, rfl, by simp [emitted], fun x => by
      simp [cellAfter, written, readCell_setCell_after]⟩
  | shour n v => exact ⟨_, rfl, rfl, rfl, by simp [emitted], fun x => by
      simp [cellAfter, written, readCell_setCell_after]⟩
  | sday n v => exact ⟨_, rfl, rfl, rfl, by simp [emitted], fun x => by
      simp [cellAfter, written, readCell_setCell_after]⟩
  | swday n v => exact ⟨_, rfl, rfl, rfl, by simp [emitted], fun x => by
      simp [cellAfter, written, readCell_setCell_after]⟩
  | smon n v => exact ⟨_, rfl, rfl, rfl, by simp [emitted], fun x => by
      simp [cellAfter, written, readCell_setCell_after]⟩
  | syear n v => exact ⟨_, rfl, rfl, rfl, by simp [emitted], fun x => by
      simp [cellAfter, written, readCell_setCell_after]⟩
  | swdayl v => exact ⟨_, rfl, rfl, rfl, by simp [emitted, State.buf_setCell], fun x => by
      simp [cellAfter, written, readCell_setCell_after]⟩

/-- The four things a step can be (30_encoding.md R63): no cycle waits, a reset cycle, a cycle without a token, a
token. -/
theorem step_cases (s : State) :
    (s.input = [] ∧ step s = .next s) ∨
    (∃ p rest, s.input = p :: rest ∧ p.rst = true ∧ step s = .next (s.resetCycle rest)) ∨
    (∃ p rest, s.input = p :: rest ∧ p.rst = false ∧ p.token = none ∧ step s = .next (s.consume rest)) ∨
    (∃ p rest k, s.input = p :: rest ∧ p.rst = false ∧ p.token = some k ∧
      step s = exec (select k s.cursor) (s.consume rest)) := by
  cases hin : s.input with
  | nil => exact .inl ⟨rfl, by simp [step, hin]⟩
  | cons p rest =>
    right
    cases hr : p.rst with
    | true => exact .inl ⟨p, rest, rfl, hr, by simp [step, hin, hr]⟩
    | false =>
      right
      cases ht : p.token with
      | none => exact .inl ⟨p, rest, rfl, hr, ht, by simp [step, hin, hr, ht]⟩
      | some k => exact .inr ⟨p, rest, k, rfl, hr, ht, by simp [step, hin, hr, ht]⟩

end Sys2Proof.Laws
end

