-- ==== Sys2Proof/Laws/PerInstr.lean ====
section
/-! SUPPORT. Statements about every instruction as syntax, one lemma per constructor. -/

namespace Sys2Proof.Laws.CursorRange

/-- A well-formed instruction has at least one cursor value, and all of them lie in 0 to 60 (30_encoding.md R65). -/
def Statement (i : Instr) : Prop :=
  i.wellFormed = true → 0 < i.cursors.2 ∧ i.cursors.1 + i.cursors.2 ≤ 61

theorem mark : Statement .mark := fun _ => by decide
theorem start (v : Trit) : Statement (.start v) := fun _ => by simp [Instr.cursors]
theorem wx (v : Trit) : Statement (.wx v) := fun _ => by simp [Instr.cursors]
theorem call (v : Trit) : Statement (.call v) := fun _ => by simp [Instr.cursors]
theorem dstann (v : Trit) : Statement (.dstann v) := fun _ => by simp [Instr.cursors]
theorem stz1 (v : Trit) : Statement (.stz1 v) := fun _ => by simp [Instr.cursors]
theorem stz2 (v : Trit) : Statement (.stz2 v) := fun _ => by simp [Instr.cursors]
theorem leapann (v : Trit) : Statement (.leapann v) := fun _ => by simp [Instr.cursors]
theorem tmark (v : Trit) : Statement (.tmark v) := fun _ => by simp [Instr.cursors]
theorem smin (i : Nat) (v : Trit) : Statement (.smin i v) := fun h => by
  simp [Instr.cursors, Instr.wellFormed] at *; omega
theorem pmin (v : Trit) : Statement (.pmin v) := fun _ => by simp [Instr.cursors]
theorem shour (i : Nat) (v : Trit) : Statement (.shour i v) := fun h => by
  simp [Instr.cursors, Instr.wellFormed] at *; omega
theorem phour (v : Trit) : Statement (.phour v) := fun _ => by simp [Instr.cursors]
theorem sday (i : Nat) (v : Trit) : Statement (.sday i v) := fun h => by
  simp [Instr.cursors, Instr.wellFormed] at *; omega
theorem swday (i : Nat) (v : Trit) : Statement (.swday i v) := fun h => by
  simp [Instr.cursors, Instr.wellFormed] at *; omega
theorem swdayl (v : Trit) : Statement (.swdayl v) := fun _ => by simp [Instr.cursors]
theorem smon (i : Nat) (v : Trit) : Statement (.smon i v) := fun h => by
  simp [Instr.cursors, Instr.wellFormed] at *; omega
theorem syear (i : Nat) (v : Trit) : Statement (.syear i v) := fun h => by
  simp [Instr.cursors, Instr.wellFormed] at *; omega
theorem pdate (v : Trit) : Statement (.pdate v) := fun _ => by simp [Instr.cursors]
theorem leapnow (v : Trit) : Statement (.leapnow v) := fun _ => by simp [Instr.cursors]
theorem overrun (v : Trit) : Statement (.overrun v) := fun _ => by simp [Instr.cursors]

end Sys2Proof.Laws.CursorRange
end

