-- ==== Sys2Proof/Laws/Run.lean ====
section
/-! SUPPORT. Runs of several steps, one step at a time. -/

namespace Sys2Proof.Laws

open Sys2Proof.Machine Sys2Proof.Safety

@[simp] theorem runSteps_zero (s : State) : runSteps 0 s = .next s := rfl

/-- The first step of a run. -/
theorem runSteps_succ (k : Nat) (s t : State) (h : step s = .next t) : runSteps (k + 1) s = runSteps k t := by
  have hc : Sys2Proof.core.step s = .next t := h
  simp only [runSteps, Host.Core.run, hc]
  rfl

/-- A run in two parts. -/
theorem runSteps_add (j k : Nat) (s t : State) (h : runSteps j s = .next t) :
    runSteps (j + k) s = runSteps k t := by
  induction j generalizing s with
  | zero => cases h; simp
  | succ j ih =>
    cases hs : step s with
    | next u =>
      rw [runSteps_succ j s u hs] at h
      rw [Nat.add_right_comm, runSteps_succ (j + k) s u hs, ih u h]
    | fault r => cases r
    | refused r =>
      have hc : Sys2Proof.core.step s = .refused r := hs
      simp [runSteps, Host.Core.run, hc] at h

/-- The step of a cycle that presents a token. -/
theorem step_ofToken (s : State) (k : Token) (rest : List PortIn) (h : s.input = PortIn.ofToken k :: rest) :
    step s = exec (select k s.cursor) (s.consume rest) := by
  simp [step, h]

/-- What a step on a token does, whatever cycles wait behind it: they wait on, and the block and its events do not
depend on them. -/
theorem step_ofToken_any_rest (s : State) (k : Token) :
    ∃ (t : State) (es : List Event), t.output = s.output ++ es ∧
      ∀ rest, step { s with input := PortIn.ofToken k :: rest } = .next { t with input := rest } := by
  obtain ⟨t, h, -, -, ho, -⟩ := exec_spec (select k s.cursor) s
  refine ⟨t, _, ho, fun rest => ?_⟩
  rw [step_ofToken _ k rest rfl]
  revert h
  cases select k s.cursor <;> (intro h; cases h; rfl)

@[simp] theorem bitCycles_nil : bitCycles [] = [] := rfl

@[simp] theorem bitCycles_cons (v : Trit) (vs : List Trit) :
    bitCycles (v :: vs) = PortIn.ofToken (.bit v) :: bitCycles vs := rfl

end Sys2Proof.Laws
end

