-- ==== Sys2Proof/Laws/System.lean ====
section
/-! SUPPORT. The block with its line source: what one line does, from what the block's step does. -/

namespace Sys2Proof.Laws

open Sys2Proof.Machine

@[simp] theorem event?_invalidLine : Report.invalidLine.event? = none := rfl
@[simp] theorem event?_block (e : Event) : (Report.block e).event? = some e := rfl

@[simp] theorem fed_input (y : System) (l : List Char) :
    (y.fed l).input = PortIn.ofToken (lineToken l) :: y.block.input := rfl
@[simp] theorem fed_cursor (y : System) (l : List Char) : (y.fed l).cursor = y.block.cursor := rfl
@[simp] theorem fed_output (y : System) (l : List Char) : (y.fed l).output = y.block.output := rfl

@[simp] theorem filterMap_event?_sourceReports (l : List Char) : (sourceReports l).filterMap Report.event? = [] := by
  unfold sourceReports
  split <;> rfl

@[simp] theorem event?_comp_block : Report.event? ∘ Report.block = some := rfl

@[simp] theorem filterMap_event?_block (es : List Event) : (es.map Report.block).filterMap Report.event? = es := by
  induction es with
  | nil => rfl
  | cons e es ih => simp [ih]

@[simp] theorem count_invalidLine_block (es : List Event) : (es.map Report.block).count .invalidLine = 0 := by
  induction es with
  | nil => rfl
  | cons e es ih => simp [ih]

theorem count_invalidLine_sourceReports (l : List Char) :
    (sourceReports l).count .invalidLine = if lineNotice l then 1 else 0 := by
  unfold sourceReports
  split <;> rfl

/-- With no line left the system rests. -/
theorem system_step_nil (y : System) (h : y.lines = []) : y.step = .next y := by
  simp [System.step, h]

/-- One line, from the block's step on its token. -/
theorem system_step_cons (y : System) (l : List Char) (rest : List (List Char)) (t : State)
    (h : y.lines = l :: rest) (hs : step (y.fed l) = .next t) :
    y.step = .next
      { block := t, lines := rest, reports := y.reports ++ sourceReports l ++ (y.fed l).stepEvents.map .block } := by
  simp [System.step, h, hs]

@[simp] theorem system_run_zero (y : System) : System.run 0 y = .next y := rfl

/-- The first line of a run. -/
theorem system_run_succ (k : Nat) (y z : System) (h : y.step = .next z) :
    System.run (k + 1) y = System.run k z := by
  simp [System.run, h]

end Sys2Proof.Laws
end

