-- ==== Sys2Proof/Tests/Slice0.lean ====
section
/-! SUPPORT. The model's own tests: ill-formed terms, words written out from the encoding, one step of each operation from the spec's test vectors (95_test_vectors.md), and a witness for the hypotheses of each statement. -/

namespace Sys2Proof.Tests

open Sys2Proof.Machine Sys2Proof.Safety

/-- The reset state at a cursor, with one token presented. -/
def at' (c : Cursor) (k : Token) : State := { State.reset with cursor := c, input := [PortIn.ofToken k] }

/-- The next state of a step. -/
def nextOf (s : State) : Option State :=
  match step s with
  | .next t => some t
  | .fault _ => none
  | .refused _ => none

/-- Cursor and new events after a step from a state whose record is empty. -/
def seen (s : State) : Option (Nat × List Event) := (nextOf s).map fun t => (t.cursor.val, t.output)

/-- Cursor, events and one buffer after a step. -/
def stored (s : State) (b : Buf) : Option (Nat × List Event × List Trit) :=
  (nextOf s).map fun t => (t.cursor.val, t.output, t.buf b)

/-- The cells of 2026-11-08 21:42, weekday 7 (vectors T-PDATE, T-MARK). -/
def dated (s : State) : State :=
  { s with
    min := #v[.zero, .one, .zero, .zero, .zero, .zero, .one]
    hour := #v[.one, .zero, .zero, .zero, .zero, .one]
    day := #v[.zero, .zero, .zero, .one, .zero, .zero]
    wday := #v[.one, .one, .one]
    mon := #v[.one, .zero, .zero, .zero, .one]
    year := #v[.zero, .one, .one, .zero, .zero, .one, .zero, .zero] }

/-! ### Ill-formed instructions are refused by the check -/

theorem test_smin_index_out_of_range_is_ill_formed : (Instr.smin 7 .one).wellFormed = false := by decide
theorem test_shour_index_out_of_range_is_ill_formed : (Instr.shour 6 .one).wellFormed = false := by decide
theorem test_sday_index_out_of_range_is_ill_formed : (Instr.sday 6 .one).wellFormed = false := by decide
theorem test_swday_index_out_of_range_is_ill_formed : (Instr.swday 2 .one).wellFormed = false := by decide
theorem test_smon_index_out_of_range_is_ill_formed : (Instr.smon 5 .one).wellFormed = false := by decide
theorem test_syear_index_out_of_range_is_ill_formed : (Instr.syear 8 .one).wellFormed = false := by decide

/-! ### Words written out: cursor in bits 7..2, token code in bits 1..0 (30_encoding.md R60, R65) -/

theorem test_decode_mark : decodeWord 0b00000011#8 = .ok (.mark) := by decide
theorem test_decode_start : decodeWord 0b00000001#8 = .ok (.start .one) := by decide
theorem test_decode_wx_first : decodeWord 0b00000100#8 = .ok (.wx .zero) := by decide
theorem test_decode_wx_last : decodeWord 0b00111010#8 = .ok (.wx .invalid) := by decide
theorem test_decode_call : decodeWord 0b00111101#8 = .ok (.call .one) := by decide
theorem test_decode_dstann : decodeWord 0b01000001#8 = .ok (.dstann .one) := by decide
theorem test_decode_stz1 : decodeWord 0b01000101#8 = .ok (.stz1 .one) := by decide
theorem test_decode_stz2 : decodeWord 0b01001010#8 = .ok (.stz2 .invalid) := by decide
theorem test_decode_leapann : decodeWord 0b01001100#8 = .ok (.leapann .zero) := by decide
theorem test_decode_tmark : decodeWord 0b01010001#8 = .ok (.tmark .one) := by decide
theorem test_decode_smin_first : decodeWord 0b01010101#8 = .ok (.smin 0 .one) := by decide
theorem test_decode_smin_last : decodeWord 0b01101110#8 = .ok (.smin 6 .invalid) := by decide
theorem test_decode_pmin : decodeWord 0b01110000#8 = .ok (.pmin .zero) := by decide
theorem test_decode_shour_first : decodeWord 0b01110101#8 = .ok (.shour 0 .one) := by decide
theorem test_decode_shour_last : decodeWord 0b10001001#8 = .ok (.shour 5 .one) := by decide
theorem test_decode_phour : decodeWord 0b10001110#8 = .ok (.phour .invalid) := by decide
theorem test_decode_sday : decodeWord 0b10100101#8 = .ok (.sday 5 .one) := by decide
theorem test_decode_swday : decodeWord 0b10101100#8 = .ok (.swday 1 .zero) := by decide
theorem test_decode_swdayl : decodeWord 0b10110001#8 = .ok (.swdayl .one) := by decide
theorem test_decode_smon : decodeWord 0b11000110#8 = .ok (.smon 4 .invalid) := by decide
theorem test_decode_syear : decodeWord 0b11100101#8 = .ok (.syear 7 .one) := by decide
theorem test_decode_pdate : decodeWord 0b11101000#8 = .ok (.pdate .zero) := by decide
theorem test_decode_leapnow : decodeWord 0b11101101#8 = .ok (.leapnow .one) := by decide
theorem test_decode_overrun : decodeWord 0b11110010#8 = .ok (.overrun .invalid) := by decide
theorem test_decode_cursor_61_rejected : decodeWord 0b11110100#8 = .error .cursorUnreachable := by decide
theorem test_table_word_of_mark : decodeTableWord 8 3 = some .mark := by decide
theorem test_table_word_above_eight_bits_refused : decodeTableWord 16 256 = none := by decide
theorem test_encode_smin : encode (.smin 6 .invalid) = 0b01101110#8 := by decide

/-! ### The step runs a placed word as the first instruction after reset -/

theorem test_placed_mark : seen (State.reset.withFetchWord 8 3) =
    some (0, [.wTz, .frame ⟨0, 0, 0, 0, 0, 0⟩]) := by decide
theorem test_placed_wx : seen (State.reset.withFetchWord 8 0b00111010) = some (15, [.wx .invalid]) := by decide
theorem test_placed_bit_code_alone_is_start : seen (State.reset.withFetchWord 8 1) = some (1, [.wStart]) := by decide

/-! ### `decode` and `parity_fail` (vectors V-D and V-P) -/

theorem test_decode_v_d5 : bcdDecode [.zero, .one, .zero, .zero, .zero, .zero, .one] = 42 := by decide
theorem test_decode_v_d8 : bcdDecode [.invalid, .one, .invalid, .one] = 10 := by decide
theorem test_decode_v_d2 : bcdDecode [.one, .one, .one, .one, .one, .one, .one] = 85 := by decide
theorem test_decode_v_d24 : bcdDecode [.one, .zero, .zero, .one, .one, .zero, .zero, .one] = 99 := by decide
theorem test_parity_v_p1 : parityFail [.zero, .zero, .zero, .zero, .zero, .zero, .zero] .zero = false := by decide
theorem test_parity_v_p2 : parityFail [.one, .zero, .zero, .zero, .zero, .zero, .zero] .zero = true := by decide
theorem test_parity_v_p4 : parityFail [.one, .zero, .zero, .zero, .zero, .zero, .zero] .one = false := by decide
theorem test_parity_v_p9 : parityFail [.zero, .one, .zero, .zero, .zero, .zero, .one] .invalid = true := by decide
theorem test_parity_v_p10 : parityFail [.one, .invalid, .invalid, .zero, .zero, .zero, .zero] .zero = true := by decide
theorem test_parity_v_p15 : parityFail [.zero, .zero, .zero, .one, .zero, .zero, .one, .one, .one, .one, .zero, .zero, .zero, .one, .zero, .one, .one, .zero, .zero, .one, .zero, .zero] .one = false := by decide

/-! ### One step of each operation (vectors T-) -/

theorem test_start_1 : seen (at' 0 (.bit .zero)) = some (1, []) := by decide
theorem test_start_3 : seen (at' 0 (.bit .invalid)) = some (1, [.wStart]) := by decide
theorem test_wx_2 : seen (at' 7 (.bit .one)) = some (8, [.wx .one]) := by decide
theorem test_wx_3 : seen (at' 14 (.bit .invalid)) = some (15, [.wx .invalid]) := by decide
theorem test_call_1 : seen (at' 15 (.bit .zero)) = some (16, [.call .zero]) := by decide
theorem test_call_3 : seen (at' 15 (.bit .invalid)) = some (16, [.call .invalid]) := by decide
theorem test_dstann_2 : seen (at' 16 (.bit .one)) = some (17, [.dstAnn]) := by decide
theorem test_dstann_3 : seen (at' 16 (.bit .invalid)) = some (17, []) := by decide
theorem test_stz1_2 : (nextOf { at' 17 (.bit .invalid) with tz1 := .one }).map (fun t => (t.cursor.val, t.tz1, t.tz2, t.output)) =
    some (18, .invalid, .zero, []) := by decide
theorem test_stz2_1 : (nextOf (at' 18 (.bit .one))).map (fun t => (t.cursor.val, t.tz1, t.tz2, t.output)) =
    some (19, .zero, .one, []) := by decide
theorem test_leapann_2 : seen (at' 19 (.bit .one)) = some (20, [.leapAnn]) := by decide
theorem test_leapann_3 : seen (at' 19 (.bit .invalid)) = some (20, []) := by decide
theorem test_tmark_1 : seen (at' 20 (.bit .one)) = some (21, []) := by decide
theorem test_tmark_3 : seen (at' 20 (.bit .invalid)) = some (21, [.wTmark]) := by decide
theorem test_smin_2 : stored { at' 24 (.bit .zero) with min := #v[.one, .one, .one, .one, .one, .one, .one] } .min = some (25, [], [.one, .one, .one, .zero, .one, .one, .one]) := by decide
theorem test_smin_3 : stored { at' 27 (.bit .invalid) with min := #v[.zero, .one, .zero, .zero, .zero, .zero, .zero] } .min = some (28, [], [.zero, .one, .zero, .zero, .zero, .zero, .invalid]) := by decide
theorem test_pmin_1 : seen { at' 28 (.bit .zero) with min := #v[.zero, .one, .zero, .zero, .zero, .zero, .one] } = some (29, []) := by decide
theorem test_pmin_3 : seen { at' 28 (.bit .invalid) with min := #v[.zero, .one, .zero, .zero, .zero, .zero, .one] } = some (29, [.wParMin]) := by decide
theorem test_shour_2 : stored { at' 34 (.bit .one) with hour := #v[.one, .zero, .zero, .zero, .zero, .zero] } .hour = some (35, [], [.one, .zero, .zero, .zero, .zero, .one]) := by decide
theorem test_shour_3 : stored { at' 31 (.bit .invalid) with hour := #v[.one, .one, .one, .one, .one, .one] } .hour = some (32, [], [.one, .one, .invalid, .one, .one, .one]) := by decide
theorem test_phour_2 : seen { at' 35 (.bit .one) with hour := #v[.one, .zero, .zero, .zero, .zero, .one] } = some (36, [.wParHour]) := by decide
theorem test_phour_4 : seen { at' 35 (.bit .one) with hour := #v[.one, .one, .zero, .zero, .zero, .one] } = some (36, []) := by decide
theorem test_sday_2 : stored { at' 39 (.bit .one) with day := #v[.zero, .zero, .zero, .zero, .zero, .zero] } .day = some (40, [], [.zero, .zero, .zero, .one, .zero, .zero]) := by decide
theorem test_sday_3 : stored { at' 41 (.bit .invalid) with day := #v[.zero, .zero, .zero, .one, .zero, .zero] } .day = some (42, [], [.zero, .zero, .zero, .one, .zero, .invalid]) := by decide
theorem test_swday_2 : stored { at' 43 (.bit .one) with wday := #v[.one, .zero, .zero] } .wday = some (44, [], [.one, .one, .zero]) := by decide
theorem test_swday_3 : stored { at' 43 (.bit .invalid) with wday := #v[.one, .one, .one] } .wday = some (44, [], [.one, .invalid, .one]) := by decide
theorem test_swdayl_3 : stored { at' 44 (.bit .zero) with wday := #v[.one, .one, .one] } .wday = some (45, [.weekday 3], [.one, .one, .zero]) := by decide
theorem test_swdayl_5 : stored { at' 44 (.bit .one) with wday := #v[.one, .invalid, .zero] } .wday = some (45, [.weekday 5], [.one, .invalid, .one]) := by decide
theorem test_smon_2 : stored { at' 49 (.bit .one) with mon := #v[.one, .zero, .zero, .zero, .zero] } .mon = some (50, [], [.one, .zero, .zero, .zero, .one]) := by decide
theorem test_smon_3 : stored { at' 47 (.bit .invalid) with mon := #v[.one, .one, .one, .one, .one] } .mon = some (48, [], [.one, .one, .invalid, .one, .one]) := by decide
theorem test_syear_2 : stored { at' 57 (.bit .one) with year := #v[.zero, .zero, .zero, .zero, .zero, .zero, .zero, .zero] } .year = some (58, [], [.zero, .zero, .zero, .zero, .zero, .zero, .zero, .one]) := by decide
theorem test_syear_3 : stored { at' 53 (.bit .invalid) with year := #v[.zero, .one, .one, .zero, .zero, .one, .zero, .zero] } .year = some (54, [], [.zero, .one, .one, .invalid, .zero, .one, .zero, .zero]) := by decide
theorem test_pdate_1 : seen (dated (at' 58 (.bit .one))) = some (59, []) := by decide
theorem test_pdate_2 : seen (dated (at' 58 (.bit .zero))) = some (59, [.wParDate]) := by decide
theorem test_leapnow_1 : seen (at' 59 (.bit .zero)) = some (60, [.leapNow]) := by decide
theorem test_leapnow_3 : seen (at' 59 (.bit .invalid)) = some (60, [.leapNow]) := by decide
theorem test_overrun_2 : nextOf (at' 60 (.bit .one)) = some { at' 60 (.bit .one) with input := [] } := by decide
theorem test_mark_4 : seen { dated (at' 30 .mark) with tz1 := .one } = some (0, [.frame ⟨26, 11, 8, 21, 42, 2⟩]) := by decide
theorem test_mark_5 : seen { dated (at' 0 .mark) with tz1 := .one, tz2 := .one } =
    some (0, [.wTz, .frame ⟨26, 11, 8, 21, 42, 0⟩]) := by decide

/-! ### Ports, line source, sink (30_encoding.md R62, R63, R71; vectors S8, S9) -/

theorem test_ports_mark_after_reset : (at' 0 .mark).portOut =
    ⟨some ⟨11, 0⟩, some ⟨0, 0, 0, 0, 0, 0⟩⟩ := by decide
theorem test_ports_wx_invalid : (at' 5 (.bit .invalid)).portOut = ⟨some ⟨1, 2⟩, none⟩ := by decide
theorem test_lines_s9 : [['1'], ['0'], [], ['1'], ['?'], ['0']].map lineToken =
    [.bit .one, .bit .zero, .mark, .bit .one, .bit .invalid, .bit .zero] := by decide
/-- The reports after one line before a reset block. -/
def reported (y : System) : Option (List Report) :=
  match y.step with
  | .next z => some z.reports
  | .fault _ => none
  | .refused _ => none

/-- R176, R178: the notice first, then W_START of the Invalid bit at cursor 0 (vector T-START-3). -/
theorem test_notice_precedes_warning : reported (System.start [['?']]) =
    some [.invalidLine, .block .wStart] := by decide
/-- R71, R176: a line that starts with a valid character is not reported. -/
theorem test_no_notice_for_valid_line : reported (System.start [['1', '?']]) = some [.block .wStart] := by decide
theorem test_line_of_carriage_return_is_invalid : lineToken [Char.ofNat 13] = .bit .invalid := by decide
theorem test_short_form : shortInput ['/', ' ', '0', 'x'] =
    [⟨false, true, 3⟩, ⟨false, true, 0⟩, ⟨false, true, 2⟩] := by decide
theorem test_render_s8 : renderFrame ⟨99, 12, 31, 23, 59, 2⟩ = "2099-12-31T23:59+02:00".toList := by decide

/-! ### Witnesses: every statement's hypotheses are met by a concrete state and operands, at the ends of each
range -/

/-- The 59 bits of the valid minute 2026-11-08 21:42 (95_test_vectors.md S3). -/
def validBits : Vector Trit 59 := ⟨#[.zero, .one, .zero, .one, .one, .zero, .zero, .one, .zero, .zero, .one, .one, .one, .zero, .zero]
  ++ #[.zero, .zero, .zero, .one, .zero, .one] ++ #[.zero, .one, .zero, .zero, .zero, .zero, .one, .zero]
  ++ #[.one, .zero, .zero, .zero, .zero, .one, .zero] ++ #[.zero, .zero, .zero, .one, .zero, .zero, .one, .one, .one]
  ++ #[.one, .zero, .zero, .zero, .one] ++ #[.zero, .one, .one, .zero, .zero, .one, .zero, .zero, .one], rfl⟩

theorem witness_DecodeAndEncodeAgree : (Instr.smin 6 .one).wellFormed = true ∧ (Instr.swday 1 .one).wellFormed = true ∧
    (Instr.syear 7 .one).wellFormed = true := by decide
theorem witness_DecodedInstructionsAreWellFormed : decodeWord 0b11110010#8 = .ok (.overrun .invalid) ∧
    decodeWord 0b11110100#8 = .error .cursorUnreachable ∧ (0b11110100#8).toNat = 61 * 4 := by decide
theorem witness_StepRunsTheSelectedOperation : (at' 60 .mark).input = [PortIn.ofToken .mark] ∧
    (PortIn.ofToken .mark).rst = false ∧ (PortIn.ofToken .mark).token = some .mark ∧
    decodeTableWord 8 0b11110001 = some (.overrun .one) := by decide
theorem witness_NothingHappensWithoutAToken : (∃ s : State, ∃ p : PortIn, s.input = [p] ∧ p.rst = false ∧
    p.tokValid = false) ∧ State.reset.input = [] :=
  ⟨⟨{ State.reset with input := [⟨false, false, 3⟩] }, ⟨false, false, 3⟩, rfl, rfl, rfl⟩, rfl⟩
theorem witness_ResetCycleRestoresTheResetState : ∃ s : State, ∃ p : PortIn, s.input = [p] ∧ p.rst = true :=
  ⟨{ State.reset with cursor := 40, tz1 := .invalid, input := [⟨true, true, 1⟩] }, ⟨true, true, 1⟩, rfl, rfl⟩
theorem witness_CursorAdvancesOnBitsAndRestartsAtMarkers :
    seen (at' 59 (.bit .zero)) = some (60, [.leapNow]) ∧ seen (at' 60 (.bit .zero)) = some (60, []) ∧
    (seen (at' 60 .mark)).map Prod.fst = some 0 ∧
    seen { at' 7 .mark with input := [⟨false, false, 3⟩] } = some (7, []) := by decide
theorem witness_BcdDecodeIsTheSumOfTheWeightsOfOneCells : 1 ≤ ([.one] : List Trit).length ∧
    (List.replicate 8 Trit.one).length ≤ 8 ∧ bcdDecode (List.replicate 8 .one) = 165 := by decide
theorem witness_WeatherBitsAreEchoedAndNotKept : select (.bit .zero) 1 = .wx .zero ∧
    select (.bit .zero) 14 = .wx .zero := by decide
theorem witness_TimezoneFlagsAreStoredByOneOperationEach : ∃ t, exec .mark State.reset = .next t ∧
    (∀ v, Instr.mark ≠ .stz1 v) ∧ (∀ v, Instr.mark ≠ .stz2 v) := ⟨_, rfl, nofun, nofun⟩
theorem witness_MinuteBitsAreStored : select (.bit .one) 21 = .smin 0 .one ∧ select (.bit .one) 27 = .smin 6 .one ∧
    ∃ t, exec .mark State.reset = .next t ∧ ∀ n v, Instr.mark ≠ .smin n v := ⟨by decide, by decide, _, rfl, nofun⟩
theorem witness_MinuteParityIsChecked : ∃ s : State, s.cursor.val = 21 ∧
    s.input = bitCycles ((Vector.replicate 7 Trit.one).toList ++ [.invalid]) ++ [] :=
  ⟨{ State.reset with cursor := 21, input := _ }, rfl, rfl⟩
theorem witness_HourBitsAreStored : select (.bit .one) 29 = .shour 0 .one ∧ select (.bit .one) 34 = .shour 5 .one ∧
    ∃ t, exec .mark State.reset = .next t ∧ ∀ n v, Instr.mark ≠ .shour n v := ⟨by decide, by decide, _, rfl, nofun⟩
theorem witness_HourParityIsChecked : ∃ s : State, s.cursor.val = 29 ∧
    s.input = bitCycles ((Vector.replicate 6 Trit.one).toList ++ [.one]) ++ [] :=
  ⟨{ State.reset with cursor := 29, input := _ }, rfl, rfl⟩
theorem witness_DateBitsAreStored : select (.bit .one) 36 = .sday 0 .one ∧ select (.bit .one) 41 = .sday 5 .one ∧
    select (.bit .one) 42 = .swday 0 .one ∧ select (.bit .one) 43 = .swday 1 .one ∧
    select (.bit .one) 45 = .smon 0 .one ∧ select (.bit .one) 49 = .smon 4 .one ∧
    select (.bit .one) 50 = .syear 0 .one ∧ select (.bit .one) 57 = .syear 7 .one ∧
    ∃ t, exec .mark State.reset = .next t ∧ (∀ n v, Instr.mark ≠ .sday n v) ∧ (∀ n v, Instr.mark ≠ .swday n v) ∧
      (∀ v, Instr.mark ≠ .swdayl v) ∧ (∀ n v, Instr.mark ≠ .smon n v) ∧ (∀ n v, Instr.mark ≠ .syear n v) :=
  ⟨by decide, by decide, by decide, by decide, by decide, by decide, by decide, by decide, _, rfl,
    nofun, nofun, nofun, nofun, nofun⟩
theorem witness_DateParityIsChecked : ∃ s : State, s.cursor.val = 36 ∧
    s.input = bitCycles ((Vector.replicate 6 Trit.one).toList ++ (Vector.replicate 3 Trit.zero).toList ++
      (Vector.replicate 5 Trit.one).toList ++ (Vector.replicate 8 Trit.invalid).toList ++ [.zero]) ++ [] :=
  ⟨{ State.reset with cursor := 36, input := _ }, rfl, rfl⟩
theorem witness_LeapSecondNoticeIsUnconditional : select (.bit .zero) 59 = .leapnow .zero ∧
    ((59 : Cursor)).val = 59 := by decide
theorem witness_OverrunChangesNothing : (at' 60 (.bit .one)).cursor.val = 60 := by decide
theorem witness_OverlongMinuteIsIgnored : ∃ s : State, s.cursor.val = 60 ∧ s.input = bitCycles [.one, .invalid] ++ [] :=
  ⟨{ State.reset with cursor := 60, input := _ }, rfl, rfl⟩
theorem witness_TimezoneTableIsTheNineRows : ¬((Trit.invalid = .one) ∧ (Trit.zero = .zero)) ∧
    ¬((Trit.invalid = .zero) ∧ (Trit.zero = .one)) := by decide
theorem witness_RepeatedMarkersRepeatTheFrame : ∃ s : State,
    s.input = List.replicate 2 (PortIn.ofToken .mark) ++ [] :=
  ⟨{ State.reset with input := _ }, rfl⟩
theorem witness_StorageMapIsEveryAccess : (at' 57 (.bit .one)).input = [PortIn.ofToken (.bit .one)] ∧
    (at' 60 .mark).input = [PortIn.ofToken .mark] ∧
    Cell.buf .year 7 ∈ allCells ∧ cellPosition (.buf .year 7) = 57 ∧
    (∀ x ∈ cellsRead (.bit .one) 58, (at' 58 (.bit .one)).readCell x =
      { at' 58 (.bit .one) with tz1 := .one, output := [.leapNow] }.readCell x) := by decide
theorem witness_CellsDoNotSteerTheBlock : (at' 44 (.bit .one)).cursor = { at' 44 (.bit .one) with tz1 := .one }.cursor ∧
    (at' 44 (.bit .one)).input = { at' 44 (.bit .one) with tz1 := .one }.input := ⟨rfl, rfl⟩
theorem witness_EqualCellsGiveEqualEventsForever :
    sameBlock (at' 44 .mark) { at' 44 .mark with output := [.leapNow] } ∧
    (at' 44 .mark).input = { at' 44 .mark with output := [.leapNow] }.input :=
  ⟨⟨rfl, fun x => by rcases x with ⟨_ | _, _⟩ | _ <;> rfl⟩, rfl⟩
theorem witness_StepKeepsTheRecordInvariant : recordOk (at' 60 .mark) ∧ ∃ t, step (at' 60 .mark) = .next t :=
  ⟨⟨by decide, by decide⟩, _, rfl⟩
theorem witness_CutMinuteMixesNewAndOldCells : ∃ s : State, s.cursor.val = 0 ∧ (List.replicate 60 Trit.one).length ≤ 60 ∧
    s.input = bitCycles (List.replicate 60 .one) ++ [] :=
  ⟨{ State.reset with input := _ }, rfl, by decide, rfl⟩
theorem witness_WholeMinuteEventsAreTheBitsAlone : ∃ s : State, s.cursor.val = 0 ∧
    s.input = bitCycles validBits.toList ++ PortIn.ofToken .mark :: [] :=
  ⟨{ State.reset with input := _ }, rfl, rfl⟩
theorem witness_ValidMinuteGivesItsFrameWithoutWarning : ∃ s : State, s.cursor.val = 0 ∧
    s.input = bitCycles validBits.toList ++ PortIn.ofToken .mark :: [] ∧
    validBits[0] = .zero ∧ validBits[20] = .one ∧
    Even ((slice validBits.toList 21 8).count .one) ∧ validBits[28] ≠ .invalid ∧
    Even ((slice validBits.toList 29 7).count .one) ∧ validBits[35] ≠ .invalid ∧
    Even ((slice validBits.toList 36 23).count .one) ∧ validBits[58] ≠ .invalid ∧
    ((validBits[17] = .one ∧ validBits[18] = .zero) ∨ (validBits[17] = .zero ∧ validBits[18] = .one)) :=
  ⟨{ State.reset with input := _ }, rfl, rfl, by decide, by decide, by decide, by decide, by decide, by decide,
    by decide, by decide, by decide⟩
theorem test_valid_minute_frame_s3 : minuteFrame validBits.toList = ⟨26, 11, 8, 21, 42, 1⟩ := by decide
theorem witness_LineToTokenByFirstCharacter : lineToken ['1', '0'] = .bit .one ∧ ' ' ≠ '0' ∧ ' ' ≠ '1' := by decide
theorem witness_InvalidLineNoticePrecedesTheBlocksEvents : (System.start []).lines = [] ∧
    (System.start [['x']]).lines = ['x'] :: [] := by decide
theorem witness_NoticesAreOnePerInvalidLineAndLeaveTheBlockAlone : State.reset.input = [] := by decide
theorem witness_RenderingPadsToTwoDigits : 99 ≤ 99 ∧ renderField 99 = ['9', '9'] ∧ renderField 0 = ['0', '0'] := by decide

end Sys2Proof.Tests
end

section
/-! PROOFS. Selection of the operation (spec 30_encoding.md R64 to R66) and the line source (R71). -/

namespace Sys2Proof.Proofs

open Sys2Proof.Machine Sys2Proof.Safety Sys2Proof.Laws

/-- R66: in every row of the selection table the trit of the token is the operand, unchanged. As in the two
lemmas below, the accessor is moved into the branches of the table, where the operation is a constructor. -/
@[simp] theorem token_select_bit (c : Cursor) (v : Trit) : (select (.bit v) c).token = .bit v := by
  simp only [select, selectBit, apply_ite Instr.token]
  simp only [Instr.token, ite_self]

/-- R64: the trit does not choose the row: the table's conditions speak of the cursor alone, so at one cursor
all trits fall into the same branch. -/
theorem mnemonic_select_bit_eq (c : Cursor) (v w : Trit) :
    mnemonic (select (.bit v) c) = mnemonic (select (.bit w) c) := by
  simp only [select, selectBit, apply_ite mnemonic]
  rfl

/-- R66: a store's cell index, and with it the cursor range of the operation, comes from the cursor alone. -/
theorem cursors_select_bit_eq (c : Cursor) (v w : Trit) :
    (select (.bit v) c).cursors = (select (.bit w) c).cursors := by
  simp only [select, selectBit, apply_ite Instr.cursors]
  rfl

/-- Settles O3: the marker's clause is `select_mark`; the bit token's clauses hold row by row of the table. -/
theorem operationIsSelectedByTokenKindAndCursor : Obligations.OperationIsSelectedByTokenKindAndCursor :=
  ⟨select_mark, token_select_bit, fun c v w => ⟨mnemonic_select_bit_eq c v w, cursors_select_bit_eq c v w⟩⟩

@[simp] theorem lineToken_nil : lineToken [] = .mark := rfl

@[simp] theorem lineToken_zero_cons (rest : List Char) : lineToken ('0' :: rest) = .bit .zero := rfl

@[simp] theorem lineToken_one_cons (rest : List Char) : lineToken ('1' :: rest) = .bit .one := rfl

/-- R71: "any other first character" is the invalid bit; the rest of the line is not looked at. -/
theorem lineToken_cons_of_ne {c : Char} (h0 : c ≠ '0') (h1 : c ≠ '1') (rest : List Char) :
    lineToken (c :: rest) = .bit .invalid := by
  rw [lineToken, if_neg h0, if_neg h1]

/-- Settles O47, by the four cases of the line: empty, first character `0`, `1`, or another. -/
theorem lineToTokenByFirstCharacter : Obligations.LineToTokenByFirstCharacter := by
  refine ⟨lineToken_nil, fun c rest => ⟨?_, ?_, fun h0 h1 => lineToken_cons_of_ne h0 h1 rest⟩⟩
  · rintro rfl
    exact lineToken_zero_cons rest
  · rintro rfl
    exact lineToken_one_cons rest

end Sys2Proof.Proofs
end

section
/-! PROOFS. The BCD field decoder (spec 40_bcd_parity.md R80, R81). -/

namespace Sys2Proof.Proofs

open Sys2Proof.Machine Sys2Proof.Laws

/-- `weigh` by index instead of by recursion, for every weight table: an index beyond the table has weight 0. -/
theorem weigh_eq_sum_range (ws : List Nat) (vs : List Trit) :
    weigh ws vs = ∑ i ∈ Finset.range vs.length, if vs[i]? = some .one then ws[i]?.getD 0 else 0 := by
  induction vs generalizing ws with
  | nil => simp
  | cons v vs ih =>
    cases ws with
    | nil => simp
    | cons w ws => simp [Finset.sum_range_succ', ih, Nat.add_comm]

/-- Settles O13: the sum by index at the table of R80. The bounds on the length are not needed, since
`weigh` counts no cell beyond the table either. -/
theorem bcdDecodeIsTheSumOfTheWeightsOfOneCells : Obligations.BcdDecodeIsTheSumOfTheWeightsOfOneCells :=
  fun cells _ _ => weigh_eq_sum_range bcdWeights cells

end Sys2Proof.Proofs
end

section
/-! PROOFS. The timezone flags (spec 41_status_positions.md R104, R105), and the cells that an operation leaves alone. -/

namespace Sys2Proof.Proofs

open Sys2Proof.Machine Sys2Proof.Laws

/-- An operation changes no cell but the one that `written` names for it (20_memory.md R41). -/
theorem exec_readCell_of_not_written {i : Instr} {s t : State} {x : Cell} (h : exec i s = .next t)
    (hx : ∀ v, written i ≠ some (x, v)) : t.readCell x = s.readCell x := by
  obtain ⟨u, hu, -, -, -, hcell⟩ := exec_spec i s
  obtain rfl : t = u := by simpa [h] using hu
  rw [hcell, cellAfter]
  split
  case h_1 y v hw =>
    have hne : x ≠ y := by
      rintro rfl
      exact hx v hw
    rw [if_neg fun hxy => hne hxy.1]
  case h_2 => rfl

/-- R104: only STZ1 names TZ1 as its cell. -/
theorem written_eq_tz1_iff {i : Instr} {v : Trit} : written i = some (.tz1, v) ↔ i = .stz1 v := by
  cases i <;> simp [written]

/-- R105: only STZ2 names TZ2 as its cell. -/
theorem written_eq_tz2_iff {i : Instr} {v : Trit} : written i = some (.tz2, v) ↔ i = .stz2 v := by
  cases i <;> simp [written]

theorem exec_tz1_of_ne_stz1 {i : Instr} {s t : State} (h : exec i s = .next t) (hi : ∀ v, i ≠ .stz1 v) :
    t.tz1 = s.tz1 :=
  Option.some.inj (exec_readCell_of_not_written h fun v hw => hi v (written_eq_tz1_iff.mp hw))

theorem exec_tz2_of_ne_stz2 {i : Instr} {s t : State} (h : exec i s = .next t) (hi : ∀ v, i ≠ .stz2 v) :
    t.tz2 = s.tz2 :=
  Option.some.inj (exec_readCell_of_not_written h fun v hw => hi v (written_eq_tz2_iff.mp hw))

/-- Settles O22: the selection and the next state of STZ1 and STZ2 are their rows and arms; the frame is the one
cell that each operation writes. -/
theorem timezoneFlagsAreStoredByOneOperationEach : Obligations.TimezoneFlagsAreStoredByOneOperationEach :=
  ⟨fun _ _ => ⟨rfl, rfl, rfl, rfl⟩, fun _ _ _ h => ⟨exec_tz1_of_ne_stz1 h, exec_tz2_of_ne_stz2 h⟩⟩

end Sys2Proof.Proofs
end

section
/-! PROOFS. The stores into the field buffers (spec 20_memory.md R41, R44), and those of the time fields
(spec 42_time_fields.md R120, R122). -/

namespace Sys2Proof.Proofs

open Sys2Proof.Machine Sys2Proof.Safety Sys2Proof.Laws

/-- R22: a buffer cell is one of the block's cells exactly when its index lies in the buffer. -/
@[simp] theorem buf_mem_allCells_iff {b : Buf} {n : Nat} : .buf b n ∈ allCells ↔ n < bufLen b := by
  rw [← readCell_isSome State.reset]
  simp [State.readCell]

/-- The cell that `written` names takes its trit, and every other cell keeps its value (R41). -/
theorem exec_writesOnly_of_written {i : Instr} {s t : State} {x : Cell} {v : Trit} (h : exec i s = .next t)
    (hw : written i = some (x, v)) (hx : x ∈ allCells) : writesOnly s t x v := by
  constructor
  · obtain ⟨u, hu, -, -, -, hcell⟩ := exec_spec i s
    obtain rfl : t = u := by simpa [h] using hu
    simp [hcell, cellAfter, hw, hx]
  · intro y hyx
    refine exec_readCell_of_not_written h fun w hy => hyx ?_
    cases hw.symm.trans hy
    rfl

/-- A silent store with an index of its buffer (R44): its one cell is written, the cursor advances, and nothing
else changes. -/
theorem exec_store {i : Instr} {b : Buf} {n : Nat} {v : Trit} (s : State) (hw : written i = some (.buf b n, v))
    (hn : n < bufLen b) (hmark : i ≠ .mark) (hsilent : emitted i s = []) :
    ∃ t, exec i s = .next t ∧ writesOnly s t (.buf b n) v ∧ t.cursor = nextCursor s.cursor ∧
      t.input = s.input ∧ t.output = s.output := by
  obtain ⟨t, h, hin, hcur, hout, -⟩ := exec_spec i s
  rw [if_neg hmark] at hcur
  rw [hsilent, List.append_nil] at hout
  exact ⟨t, h, exec_writesOnly_of_written h hw (buf_mem_allCells_iff.mpr hn), hcur, hin, hout⟩

/-- An operation that names no cell of a buffer leaves the whole buffer as it was. -/
theorem exec_buf_of_not_written {i : Instr} {s t : State} {b : Buf} (h : exec i s = .next t)
    (hb : ∀ n v, written i ≠ some (.buf b n, v)) : t.buf b = s.buf b :=
  List.ext_getElem? fun n => exec_readCell_of_not_written (x := .buf b n) h (hb n)

/-- R120: only SMIN names a cell of MIN. -/
theorem written_eq_min_iff {i : Instr} {n : Nat} {v : Trit} : written i = some (.buf .min n, v) ↔ i = .smin n v := by
  cases i <;> simp [written]

/-- R122: only SHOUR names a cell of HOUR. -/
theorem written_eq_hour_iff {i : Instr} {n : Nat} {v : Trit} :
    written i = some (.buf .hour n, v) ↔ i = .shour n v := by
  cases i <;> simp [written]

theorem exec_min_of_ne_smin {i : Instr} {s t : State} (hi : ∀ n v, i ≠ .smin n v) (h : exec i s = .next t) :
    t.min = s.min :=
  Vector.toList_inj.mp (exec_buf_of_not_written (b := .min) h fun n v hw => hi n v (written_eq_min_iff.mp hw))

theorem exec_hour_of_ne_shour {i : Instr} {s t : State} (hi : ∀ n v, i ≠ .shour n v) (h : exec i s = .next t) :
    t.hour = s.hour :=
  Vector.toList_inj.mp (exec_buf_of_not_written (b := .hour) h fun n v hw => hi n v (written_eq_hour_iff.mp hw))

/-- R65: the eight rows above SMIN end at cursor 20. -/
theorem select_bit_eq_smin {c : Cursor} (v : Trit) (hlo : 21 ≤ c.val) (hhi : c.val ≤ 27) :
    select (.bit v) c = .smin (c.val - 21) v := by
  rw [select, selectBit]
  iterate 8 rw [if_neg (by omega)]
  rw [if_pos hhi]

/-- R65: the ten rows above SHOUR end at cursor 28. -/
theorem select_bit_eq_shour {c : Cursor} (v : Trit) (hlo : 29 ≤ c.val) (hhi : c.val ≤ 34) :
    select (.bit v) c = .shour (c.val - 29) v := by
  rw [select, selectBit]
  iterate 10 rw [if_neg (by omega)]
  rw [if_pos hhi]

/-- Settles O23: the row of SMIN, its store of one cell of MIN, and the frame of every other operation. -/
theorem minuteBitsAreStored : Obligations.MinuteBitsAreStored :=
  ⟨fun _ v => select_bit_eq_smin v, fun _ _ s hi => exec_store s rfl hi nofun rfl,
    fun _ _ _ => exec_min_of_ne_smin⟩

/-- Settles O25: the row of SHOUR, its store of one cell of HOUR, and the frame of every other operation. -/
theorem hourBitsAreStored : Obligations.HourBitsAreStored :=
  ⟨fun _ v => select_bit_eq_shour v, fun _ _ s hi => exec_store s rfl hi nofun rfl,
    fun _ _ _ => exec_hour_of_ne_shour⟩

end Sys2Proof.Proofs
end

section
/-! PROOFS. The minute boundary (spec 44_minute_boundary.md R150, R153). -/

namespace Sys2Proof.Proofs

open Sys2Proof.Machine Sys2Proof.Laws

/-- Settles O35: MARK names no cell, so every cell is kept (`exec_readCell_of_not_written`), and of all
operations it is the one that sets the cursor to 0 (R27). -/
theorem markClearsNoCell : Obligations.MarkClearsNoCell := by
  intro s
  obtain ⟨t, h, -, hcur, -, -⟩ := exec_spec .mark s
  rw [if_pos rfl] at hcur
  exact ⟨t, h, congrArg Fin.val hcur, fun _ => exec_readCell_of_not_written h nofun⟩

end Sys2Proof.Proofs
end

section
/-! PROOFS. Decoder and encoder (spec 30_encoding.md R60, R64 to R69): the selection table read in both directions. -/

namespace Sys2Proof.Proofs

open Sys2Proof.Machine Sys2Proof.Safety Sys2Proof.Laws

/-- R65: a row of one cursor value is met at that cursor alone. -/
theorem eq_of_single_cursor {c n : Cursor} (hlo : n.val ≤ c.val) (hhi : c.val < n.val + 1) : c = n :=
  Fin.ext (by omega)

/-- R66: in a row of stores with `len` cursor values from `base`, the index fixes the cursor and lies in the row. -/
theorem store_cursor_index {base len n c : Nat} (hn : n < len) (hlo : base + n ≤ c) (hhi : c < base + n + 1) :
    base ≤ c ∧ c < base + len ∧ c - base = n := by
  omega

/-- R65: the one row above WX is that of cursor 0. -/
theorem select_bit_eq_wx {c : Cursor} (v : Trit) (hlo : 1 ≤ c.val) (hhi : c.val ≤ 14) :
    select (.bit v) c = .wx v := by
  rw [select, selectBit, if_neg (by omega), if_pos hhi]

/-- R65: the twelve rows above SDAY end at cursor 35. -/
theorem select_bit_eq_sday {c : Cursor} (v : Trit) (hlo : 36 ≤ c.val) (hhi : c.val ≤ 41) :
    select (.bit v) c = .sday (c.val - 36) v := by
  rw [select, selectBit]
  iterate 12 rw [if_neg (by omega)]
  rw [if_pos hhi]

/-- R65: the thirteen rows above SWDAY end at cursor 41. -/
theorem select_bit_eq_swday {c : Cursor} (v : Trit) (hlo : 42 ≤ c.val) (hhi : c.val ≤ 43) :
    select (.bit v) c = .swday (c.val - 42) v := by
  rw [select, selectBit]
  iterate 13 rw [if_neg (by omega)]
  rw [if_pos hhi]

/-- R65: the fifteen rows above SMON end at cursor 44. -/
theorem select_bit_eq_smon {c : Cursor} (v : Trit) (hlo : 45 ≤ c.val) (hhi : c.val ≤ 49) :
    select (.bit v) c = .smon (c.val - 45) v := by
  rw [select, selectBit]
  iterate 15 rw [if_neg (by omega)]
  rw [if_pos hhi]

/-- R65: the sixteen rows above SYEAR end at cursor 49. -/
theorem select_bit_eq_syear {c : Cursor} (v : Trit) (hlo : 50 ≤ c.val) (hhi : c.val ≤ 57) :
    select (.bit v) c = .syear (c.val - 50) v := by
  rw [select, selectBit]
  iterate 16 rw [if_neg (by omega)]
  rw [if_pos hhi]

@[simp] theorem token_select (k : Token) (c : Cursor) : (select k c).token = k := by
  cases k with
  | mark => rfl
  | bit v => exact token_select_bit c v

@[simp] theorem select_eq_mark_iff {k : Token} {c : Cursor} : select k c = .mark ↔ k = .mark := by
  cases k with
  | mark => simp
  | bit v => simp [select_bit_ne_mark]

/-- R65: the cursor lies in the cursor range of the operation it selects. -/
theorem cursor_mem_cursors_select (k : Token) (c : Cursor) :
    (select k c).cursors.1 ≤ c.val ∧ c.val < (select k c).cursors.1 + (select k c).cursors.2 := by
  cases k with
  | mark => exact ⟨c.val.zero_le, by simp [Instr.cursors]⟩
  | bit v =>
    rw [cursors_select_bit_eq c v .zero]
    revert c
    decide

/-- R66: the selection table forms no index outside its buffer (20_memory.md R44). -/
theorem wellFormed_select (k : Token) (c : Cursor) : (select k c).wellFormed = true := by
  cases k with
  | mark => rfl
  | bit v =>
    revert c
    cases v <;> decide

/-- R65, read backwards: at every cursor of an operation's range its token selects it. -/
theorem select_token_of_cursor_mem {i : Instr} (hi : i.wellFormed = true) {c : Cursor} (hlo : i.cursors.1 ≤ c.val)
    (hhi : c.val < i.cursors.1 + i.cursors.2) : select i.token c = i := by
  cases i with
  | mark => rfl
  | start v => obtain rfl : c = 0 := eq_of_single_cursor hlo hhi; rfl
  | wx v => exact select_bit_eq_wx v hlo (Nat.le_of_lt_succ hhi)
  | call v => obtain rfl : c = 15 := eq_of_single_cursor hlo hhi; rfl
  | dstann v => obtain rfl : c = 16 := eq_of_single_cursor hlo hhi; rfl
  | stz1 v => obtain rfl : c = 17 := eq_of_single_cursor hlo hhi; rfl
  | stz2 v => obtain rfl : c = 18 := eq_of_single_cursor hlo hhi; rfl
  | leapann v => obtain rfl : c = 19 := eq_of_single_cursor hlo hhi; rfl
  | tmark v => obtain rfl : c = 20 := eq_of_single_cursor hlo hhi; rfl
  | pmin v => obtain rfl : c = 28 := eq_of_single_cursor hlo hhi; rfl
  | phour v => obtain rfl : c = 35 := eq_of_single_cursor hlo hhi; rfl
  | swdayl v => obtain rfl : c = 44 := eq_of_single_cursor hlo hhi; rfl
  | pdate v => obtain rfl : c = 58 := eq_of_single_cursor hlo hhi; rfl
  | leapnow v => obtain rfl : c = 59 := eq_of_single_cursor hlo hhi; rfl
  | overrun v => obtain rfl : c = 60 := eq_of_single_cursor hlo hhi; rfl
  | smin n v =>
    obtain ⟨hge, hlt, rfl⟩ := store_cursor_index (of_decide_eq_true hi) hlo hhi
    exact select_bit_eq_smin v hge (Nat.le_of_lt_succ hlt)
  | shour n v =>
    obtain ⟨hge, hlt, rfl⟩ := store_cursor_index (of_decide_eq_true hi) hlo hhi
    exact select_bit_eq_shour v hge (Nat.le_of_lt_succ hlt)
  | sday n v =>
    obtain ⟨hge, hlt, rfl⟩ := store_cursor_index (of_decide_eq_true hi) hlo hhi
    exact select_bit_eq_sday v hge (Nat.le_of_lt_succ hlt)
  | swday n v =>
    obtain ⟨hge, hlt, rfl⟩ := store_cursor_index (of_decide_eq_true hi) hlo hhi
    exact select_bit_eq_swday v hge (Nat.le_of_lt_succ hlt)
  | smon n v =>
    obtain ⟨hge, hlt, rfl⟩ := store_cursor_index (of_decide_eq_true hi) hlo hhi
    exact select_bit_eq_smon v hge (Nat.le_of_lt_succ hlt)
  | syear n v =>
    obtain ⟨hge, hlt, rfl⟩ := store_cursor_index (of_decide_eq_true hi) hlo hhi
    exact select_bit_eq_syear v hge (Nat.le_of_lt_succ hlt)

/-- The selection table in both directions: a token at a cursor selects a well-formed operation exactly when it is
that operation's token and the cursor lies in its range. -/
theorem select_eq_iff {i : Instr} (hi : i.wellFormed = true) {k : Token} {c : Cursor} :
    select k c = i ↔ k = i.token ∧ i.cursors.1 ≤ c.val ∧ c.val < i.cursors.1 + i.cursors.2 := by
  constructor
  · rintro rfl
    exact ⟨(token_select k c).symm, cursor_mem_cursors_select k c⟩
  · rintro ⟨rfl, hlo, hhi⟩
    exact select_token_of_cursor_mem hi hlo hhi

/-- Every token is the token of one code (R60, R67). -/
@[simp] theorem code_ofCode (c : TokCode) : (Token.ofCode c).code = c := by
  revert c
  decide

/-- R60: the code determines the token and is determined by it. -/
theorem ofCode_eq_iff {c : TokCode} {t : Token} : Token.ofCode c = t ↔ c = t.code := by
  constructor
  · rintro rfl
    exact (code_ofCode c).symm
  · rintro rfl
    exact ofCode_code t

/-- Settles O2: the four codes by evaluation; `ofCode_code` and `code_ofCode` are the two round trips. -/
theorem tokenCodesAreAllAssignedOneToOne : Obligations.TokenCodesAreAllAssignedOneToOne :=
  ⟨rfl, rfl, rfl, rfl, ofCode_code, code_ofCode⟩

/-- The cursor field is what stands above the two bits of the token code. -/
theorem cursorField_eq (w : SelWord) : SelWord.cursorField w = w.toNat / 4 := by
  have hw := w.isLt
  simp only [SelWord.cursorField, BitVec.extractLsb'_toNat, Nat.shiftRight_eq_div_pow]
  omega

/-- A selector word is its two fields, packed. -/
theorem packWord_tok_cursorField (w : SelWord) : packWord (SelWord.tok w) (SelWord.cursorField w) = w := by
  have hw := w.isLt
  apply BitVec.eq_of_toNat_eq
  simp only [packWord_toNat, cursorField_eq, SelWord.tok, BitVec.extractLsb'_toNat, Nat.shiftRight_zero]
  omega

/-- A selector word is the packing of `t` and `n` exactly when those are its fields. -/
theorem packWord_eq_iff {t : TokCode} {n : Nat} (hn : n < 64) {w : SelWord} :
    packWord t n = w ↔ SelWord.tok w = t ∧ SelWord.cursorField w = n := by
  constructor
  · rintro rfl
    rw [tok_packWord, cursorField_packWord, Nat.mod_eq_of_lt hn]
    exact ⟨rfl, rfl⟩
  · rintro ⟨rfl, rfl⟩
    exact packWord_tok_cursorField w

theorem decodeWord_of_lt {w : SelWord} (h : SelWord.cursorField w < 61) :
    decodeWord w = .ok (select (Token.ofCode (SelWord.tok w)) ⟨SelWord.cursorField w, h⟩) := by
  rw [decodeWord, dif_pos h]

theorem decodeWord_of_ge {w : SelWord} (h : 61 ≤ SelWord.cursorField w) :
    decodeWord w = .error .cursorUnreachable := by
  rw [decodeWord, dif_neg (Nat.not_lt.mpr h)]

/-- What a selector word decodes to, by its two fields. -/
theorem decodeWord_eq_ok_iff {w : SelWord} {i : Instr} :
    decodeWord w = .ok i ↔ ∃ h : SelWord.cursorField w < 61,
      select (Token.ofCode (SelWord.tok w)) ⟨SelWord.cursorField w, h⟩ = i := by
  by_cases h : SelWord.cursorField w < 61
  · simp [decodeWord_of_lt h, h]
  · simp [decodeWord_of_ge (Nat.not_lt.mp h), h]

/-- The cursor range of a well-formed instruction is not empty and ends at 60 (`Laws.CursorRange`, constructor by
constructor). -/
theorem cursors_bound (i : Instr) : CursorRange.Statement i := by
  cases i with
  | mark => exact CursorRange.mark
  | start v => exact CursorRange.start v
  | wx v => exact CursorRange.wx v
  | call v => exact CursorRange.call v
  | dstann v => exact CursorRange.dstann v
  | stz1 v => exact CursorRange.stz1 v
  | stz2 v => exact CursorRange.stz2 v
  | leapann v => exact CursorRange.leapann v
  | tmark v => exact CursorRange.tmark v
  | smin n v => exact CursorRange.smin n v
  | pmin v => exact CursorRange.pmin v
  | shour n v => exact CursorRange.shour n v
  | phour v => exact CursorRange.phour v
  | sday n v => exact CursorRange.sday n v
  | swday n v => exact CursorRange.swday n v
  | swdayl v => exact CursorRange.swdayl v
  | smon n v => exact CursorRange.smon n v
  | syear n v => exact CursorRange.syear n v
  | pdate v => exact CursorRange.pdate v
  | leapnow v => exact CursorRange.leapnow v
  | overrun v => exact CursorRange.overrun v

/-- The encodings of a well-formed instruction, by the two fields of the word. -/
theorem mem_encodings_iff {i : Instr} (hi : i.wellFormed = true) {w : SelWord} :
    w ∈ encodings i ↔ SelWord.tok w = i.token.code ∧ i.cursors.1 ≤ SelWord.cursorField w ∧
      SelWord.cursorField w < i.cursors.1 + i.cursors.2 := by
  obtain ⟨-, hmax⟩ := cursors_bound i hi
  simp only [encodings, List.mem_map, List.mem_range'_1]
  constructor
  · rintro ⟨n, hn, hw⟩
    obtain ⟨ht, rfl⟩ := (packWord_eq_iff (by omega)).mp hw
    exact ⟨ht, hn⟩
  · rintro ⟨ht, hn⟩
    exact ⟨_, hn, (packWord_eq_iff (by omega)).mpr ⟨ht, rfl⟩⟩

/-- The words that decode to a well-formed instruction are its encodings. -/
theorem decodeWord_eq_ok_iff_mem_encodings {i : Instr} (hi : i.wellFormed = true) {w : SelWord} :
    decodeWord w = .ok i ↔ w ∈ encodings i := by
  obtain ⟨-, hmax⟩ := cursors_bound i hi
  simp only [decodeWord_eq_ok_iff, select_eq_iff hi, mem_encodings_iff hi, ofCode_eq_iff]
  constructor
  · rintro ⟨-, h⟩
    exact h
  · rintro ⟨ht, hlo, hhi⟩
    exact ⟨by omega, ht, hlo, hhi⟩

/-- The encoder gives the first of the encodings. -/
theorem encode_mem_encodings {i : Instr} (hi : i.wellFormed = true) : encode i ∈ encodings i :=
  List.mem_map_of_mem (List.mem_range'_1.mpr ⟨le_rfl, Nat.lt_add_of_pos_right (cursors_bound i hi).1⟩)

/-- Settles O5: the selection table read in both directions (`select_eq_iff`), through the fields of the word. -/
theorem decodeAndEncodeAgree : Obligations.DecodeAndEncodeAgree := fun _ hi =>
  ⟨(decodeWord_eq_ok_iff_mem_encodings hi).mpr (encode_mem_encodings hi),
    fun _ => decodeWord_eq_ok_iff_mem_encodings hi⟩

theorem wellFormed_of_decodeWord {w : SelWord} {i : Instr} (h : decodeWord w = .ok i) : i.wellFormed = true := by
  obtain ⟨-, rfl⟩ := decodeWord_eq_ok_iff.mp h
  exact wellFormed_select _ _

/-- R69: a word is rejected exactly when its cursor field is above 60. -/
theorem decodeWord_eq_error_iff {w : SelWord} :
    decodeWord w = .error .cursorUnreachable ↔ 61 ≤ SelWord.cursorField w := by
  by_cases h : SelWord.cursorField w < 61
  · simp [decodeWord_of_lt h, h]
  · simp [decodeWord_of_ge (Nat.not_lt.mp h), Nat.not_lt.mp h]

/-- Settles O6: decoded instructions are selected ones (`wellFormed_select`), and the cursor field is the word
divided by 4. -/
theorem decodedInstructionsAreWellFormed : Obligations.DecodedInstructionsAreWellFormed := by
  refine fun w => ⟨fun i => wellFormed_of_decodeWord, ?_⟩
  rw [decodeWord_eq_error_iff, cursorField_eq, Nat.le_div_iff_mul_le (by decide)]

/-- Settles O7, by decoding the eight words. -/
theorem sampleWordsDecodeAsTheTableSays : Obligations.SampleWordsDecodeAsTheTableSays := by
  unfold Obligations.SampleWordsDecodeAsTheTableSays
  decide

/-- R65: two rows whose cursor ranges overlap are one row. -/
theorem bitRow_eq_of_overlap : ∀ r ∈ bitRows, ∀ r' ∈ bitRows, r.lo ≤ r'.hi → r'.lo ≤ r.hi → r' = r := by decide

/-- The row of each of the 61 cursor values, found in the table. -/
theorem exists_bitRow_of_cursor (c : Cursor) :
    ∃ r ∈ bitRows, (r.lo ≤ c.val ∧ c.val ≤ r.hi) ∧ mnemonic (select (.bit .zero) c) = r.name := by
  revert c
  decide

/-- Settles O4: the table holds a row for every cursor, and its rows do not overlap; the trit does not choose. -/
theorem bitTokenSelectsTheOneRowOfItsCursor : Obligations.BitTokenSelectsTheOneRowOfItsCursor := by
  intro c v
  obtain ⟨r, hr, hc, hname⟩ := exists_bitRow_of_cursor c
  exact ⟨r, hr, hc.1, hc.2, (mnemonic_select_bit_eq c v .zero).trans hname,
    fun r' hr' hlo hhi => bitRow_eq_of_overlap r hr r' hr' (hc.1.trans hhi) (hlo.trans hc.2)⟩

end Sys2Proof.Proofs
end

section
/-! PROOFS. One step of the block (spec 30_encoding.md R63, 10_state.md R27, 60_exceptions.md R179): what it does in
each of the four kinds of cycle. -/

namespace Sys2Proof.Proofs

open Sys2Proof.Machine Sys2Proof.Safety Sys2Proof.Laws

section
variable {s : State} {p : PortIn} {rest : List PortIn}

theorem step_of_nil (hin : s.input = []) : step s = .next s := by
  simp [step, hin]

theorem step_of_rst (hin : s.input = p :: rest) (hr : p.rst = true) : step s = .next (s.resetCycle rest) := by
  simp [step, hin, hr]

theorem step_of_no_token (hin : s.input = p :: rest) (hr : p.rst = false) (ht : p.token = none) :
    step s = .next (s.consume rest) := by
  simp [step, hin, hr, ht]

theorem step_of_token {k : Token} (hin : s.input = p :: rest) (hr : p.rst = false) (ht : p.token = some k) :
    step s = exec (select k s.cursor) (s.consume rest) := by
  simp [step, hin, hr, ht]

end

/-- An operation's events do not depend on the waiting input. -/
@[simp] theorem emitted_consume (i : Instr) (s : State) (rest : List PortIn) :
    emitted i (s.consume rest) = emitted i s := by
  cases i <;> rfl

/-- An operation's cells do not depend on the waiting input. -/
@[simp] theorem cellAfter_consume (i : Instr) (s : State) (rest : List PortIn) (x : Cell) :
    cellAfter i (s.consume rest) x = cellAfter i s x := by
  simp [cellAfter]

/-- Everything a step on a token can do: it consumes the cycle, moves the cursor (R27), appends the events of the
selected operation to the record and writes at most its one cell. -/
theorem step_token_spec {s : State} {p : PortIn} {rest : List PortIn} {k : Token} (hin : s.input = p :: rest)
    (hr : p.rst = false) (ht : p.token = some k) :
    ∃ t, step s = .next t ∧ t.input = rest ∧ t.cursor = (if k = .mark then 0 else nextCursor s.cursor) ∧
      t.output = s.output ++ emitted (select k s.cursor) s ∧ ∀ x, t.readCell x = cellAfter (select k s.cursor) s x := by
  simpa [step_of_token hin hr ht] using exec_spec (select k s.cursor) (s.consume rest)

/-- R179: every step completes. -/
theorem exists_step (s : State) : ∃ t, step s = .next t := by
  rcases step_cases s with ⟨-, h⟩ | ⟨p, rest, -, -, h⟩ | ⟨p, rest, -, -, -, h⟩ | ⟨p, rest, k, hin, hr, ht, -⟩
  · exact ⟨_, h⟩
  · exact ⟨_, h⟩
  · exact ⟨_, h⟩
  · obtain ⟨t, h, -⟩ := step_token_spec hin hr ht
    exact ⟨t, h⟩

/-- Every run is made of steps that complete. -/
theorem exists_runSteps (k : Nat) (s : State) : safeRun k s := by
  induction k generalizing s with
  | zero => exact ⟨s, runSteps_zero s⟩
  | succ k ih =>
    obtain ⟨u, hu⟩ := exists_step s
    obtain ⟨t, ht⟩ := ih u
    exact ⟨t, (runSteps_succ k s u hu).trans ht⟩

/-- Settles O11, by the four kinds of cycle for the step and by induction on the length for the run. -/
theorem everyStepCompletes : Obligations.EveryStepCompletes :=
  ⟨exists_step, exists_runSteps⟩

/-- Settles O12: a cycle without a token consumes itself alone; the cursor after a token is `exec_spec`'s. -/
theorem cursorAdvancesOnBitsAndRestartsAtMarkers : Obligations.CursorAdvancesOnBitsAndRestartsAtMarkers := by
  intro s p rest hin hr
  cases ht : p.token with
  | none => exact ⟨_, step_of_no_token hin hr ht, rfl, rfl⟩
  | some k =>
    obtain ⟨t, h, hrest, hcur, -⟩ := step_token_spec hin hr ht
    refine ⟨t, h, hrest, ?_⟩
    rw [hcur]
    cases k <;> rfl

/-- Settles O9: without a token the cycle alone is consumed, and the end of the input is no cycle. -/
theorem nothingHappensWithoutAToken : Obligations.NothingHappensWithoutAToken :=
  ⟨fun _ p _ hin hr hv => step_of_no_token hin hr (by simp [PortIn.token, hv]), fun _ => step_of_nil⟩

/-- Settles O10: `resetCycle` restores the cursor and every cell (`State.readCell_resetCycle`). -/
theorem resetCycleRestoresTheResetState : Obligations.ResetCycleRestoresTheResetState :=
  fun s _ rest hin hr => ⟨_, step_of_rst hin hr, ⟨rfl, s.readCell_resetCycle rest⟩, rfl, rfl⟩

/-- A table word decodes as its low eight bits do. -/
theorem decodeWord_of_decodeTableWord {nbits w : Nat} {i : Instr} (h : decodeTableWord nbits w = some i) :
    decodeWord (BitVec.ofNat 8 w) = .ok i := by
  unfold decodeTableWord at h
  split at h
  · split at h
    · next j hj => exact hj.trans (congrArg _ (Option.some.inj h))
    · cases h
  · cases h

theorem withFetchWord_input {nbits w : Nat} {i : Instr} (s : State) (h : decodeTableWord nbits w = some i) :
    (s.withFetchWord nbits w).input = PortIn.ofToken i.token :: s.input := by
  simp [State.withFetchWord, h]

/-- The placed word's instruction is the one selected: MARK at every cursor, any other at the word's cursor. -/
theorem select_withFetchWord {nbits w : Nat} {i : Instr} (s : State) (h : decodeTableWord nbits w = some i) :
    select i.token (s.withFetchWord nbits w).cursor = i := by
  obtain ⟨hlt, hsel⟩ := decodeWord_eq_ok_iff.mp (decodeWord_of_decodeTableWord h)
  by_cases hi : i = .mark
  · subst hi
    rfl
  · have hcur : (s.withFetchWord nbits w).cursor = ⟨_, hlt⟩ := by simp [State.withFetchWord, h, hi, hlt]
    rw [hcur, ← hsel, token_select]

/-- Settles O8: the token's clause is the step's own case, and a placed word presents the token and the cursor that
select its instruction. -/
theorem stepRunsTheSelectedOperation : Obligations.StepRunsTheSelectedOperation := by
  refine ⟨fun _ _ _ _ => step_of_token, fun i nbits w s h => ?_⟩
  rw [step_ofToken _ _ _ (withFetchWord_input s h), select_withFetchWord s h]
  rfl

end Sys2Proof.Proofs
end

section
/-! PROOFS. Parity and the range of the decoder (spec 40_bcd_parity.md R81 to R88). -/

namespace Sys2Proof.Proofs

open Sys2Proof.Machine Sys2Proof.Safety Sys2Proof.Laws

/-- `popcount` by index (R82): it is the decoder's sum with every weight 1. -/
theorem popcount_eq_card (cells : List Trit) :
    popcount cells = ((Finset.range cells.length).filter fun i => cells[i]? = some .one).card := by
  induction cells with
  | nil => rfl
  | cons v vs ih =>
    rw [popcount, ih, Finset.card_filter, Finset.card_filter, List.length_cons, Finset.sum_range_succ', Nat.add_comm]
    simp only [List.getElem?_cons_succ, List.getElem?_cons_zero, Option.some.injEq]

@[simp] theorem parityFail_eq_true_iff {cells : List Trit} {p : Trit} :
    parityFail cells p = true ↔ popcount cells % 2 = lnot p := by
  simp [parityFail]

/-- Settles O14: the count by index, and the formula read off `parityFail`. -/
theorem parityFailIsTheLiteralFormula : Obligations.ParityFailIsTheLiteralFormula :=
  ⟨popcount_eq_card, rfl, rfl, rfl, fun _ _ => parityFail_eq_true_iff⟩

/-- R85: the parity bit Zero asks for an even count; `lnot` is 1 for it and 0 for the others. -/
theorem parityFail_zero_iff {cells : List Trit} : parityFail cells .zero = true ↔ Odd (cells.count .one) := by
  rw [parityFail_eq_true_iff, popcount_eq_count, Nat.odd_iff]
  rfl

theorem parityFail_iff_even {cells : List Trit} {p : Trit} (hp : p ≠ .zero) :
    parityFail cells p = true ↔ Even (cells.count .one) := by
  rw [parityFail_eq_true_iff, popcount_eq_count, Nat.even_iff]
  cases p with
  | zero => exact absurd rfl hp
  | one => rfl
  | invalid => rfl

/-- Settles O15: the row of Zero, and the one row of the two parity bits whose `lnot` is 0. -/
theorem parityFailTruthTable : Obligations.ParityFailTruthTable := fun _ =>
  ⟨parityFail_zero_iff, parityFail_iff_even nofun, parityFail_iff_even nofun⟩

/-- Whether a cell holds One is all that the decoder and the checker see of it (R81, R82). -/
theorem weigh_map_of_one_iff {f : Trit → Trit} (hf : ∀ v, f v = .one ↔ v = .one) (ws : List Nat) (vs : List Trit) :
    weigh ws (vs.map f) = weigh ws vs := by
  induction vs generalizing ws with
  | nil => rfl
  | cons v vs ih =>
    cases ws with
    | nil => rfl
    | cons w ws => simp only [List.map_cons, weigh_cons, ih, hf]

theorem popcount_map_of_one_iff {f : Trit → Trit} (hf : ∀ v, f v = .one ↔ v = .one) (vs : List Trit) :
    popcount (vs.map f) = popcount vs := by
  induction vs with
  | nil => rfl
  | cons v vs ih => simp only [List.map_cons, popcount, ih, hf]

/-- Blanking Invalid to Zero leaves the One cells where they are (R88). -/
theorem blank_eq_one_iff (v : Trit) : (if v = .invalid then Trit.zero else v) = .one ↔ v = .one := by
  cases v <;> decide

/-- C2: an Invalid parity bit is judged as One, not as Zero. -/
theorem parityFail_invalid_ne_zero (cells : List Trit) : parityFail cells .invalid ≠ parityFail cells .zero := by
  rw [Ne, Bool.eq_iff_iff, parityFail_zero_iff, parityFail_iff_even (p := .invalid) nofun,
    ← Nat.not_even_iff_odd]
  exact iff_not_self

/-- Settles O16: the decoder and the checker see only which cells hold One, and blanking moves none of those. -/
theorem invalidFieldCellsCountAsZero : Obligations.InvalidFieldCellsCountAsZero := by
  intro cells
  have hcount := popcount_map_of_one_iff blank_eq_one_iff cells
  exact ⟨weigh_map_of_one_iff blank_eq_one_iff bcdWeights cells, hcount, fun p => by rw [parityFail, parityFail, hcount],
    parityFail_invalid_ne_zero cells⟩

/-- R87: a decoded value never exceeds the sum of the weights that meet a cell. -/
theorem weigh_le_sum_take (ws : List Nat) (vs : List Trit) : weigh ws vs ≤ (ws.take vs.length).sum := by
  induction vs generalizing ws with
  | nil => simp
  | cons v vs ih =>
    cases ws with
    | nil => simp
    | cons w ws =>
      have := ih ws
      simp only [weigh_cons, List.length_cons, List.take_succ_cons, List.sum_cons]
      split_ifs <;> omega

/-- With a positive weight for every cell, the greatest value is reached by One cells alone. -/
theorem weigh_eq_sum_take_iff {ws : List Nat} (hpos : ∀ w ∈ ws, 0 < w) {vs : List Trit} (hlen : vs.length ≤ ws.length) :
    weigh ws vs = (ws.take vs.length).sum ↔ ∀ v ∈ vs, v = .one := by
  induction vs generalizing ws with
  | nil => simp
  | cons v vs ih =>
    cases ws with
    | nil => simp at hlen
    | cons w ws =>
      have ⟨hw, hws⟩ := List.forall_mem_cons.mp hpos
      have hle := weigh_le_sum_take ws vs
      rw [List.forall_mem_cons, ← ih hws (Nat.le_of_succ_le_succ hlen)]
      simp only [weigh_cons, List.length_cons, List.take_succ_cons, List.sum_cons]
      split_ifs with hv
      · simp [hv]
      · simp only [hv, false_and, iff_false]
        omega

/-- With a positive weight for every cell, the value 0 is that of cells without a One. -/
theorem weigh_eq_zero_iff {ws : List Nat} (hpos : ∀ w ∈ ws, 0 < w) {vs : List Trit} (hlen : vs.length ≤ ws.length) :
    weigh ws vs = 0 ↔ ∀ v ∈ vs, v ≠ .one := by
  induction vs generalizing ws with
  | nil => simp
  | cons v vs ih =>
    cases ws with
    | nil => simp at hlen
    | cons w ws =>
      have ⟨hw, hws⟩ := List.forall_mem_cons.mp hpos
      rw [List.forall_mem_cons, ← ih hws (Nat.le_of_succ_le_succ hlen), weigh_cons]
      split_ifs with hv
      · simp only [hv, ne_eq, not_true_eq_false, false_and, iff_false]
        omega
      · simp [hv]

theorem bcdWeights_pos : ∀ w ∈ bcdWeights, 0 < w := by decide

/-- R22, R80: the weight table is long enough for every buffer. -/
theorem buf_length_le_bcdWeights (s : State) (b : Buf) : (s.buf b).length ≤ bcdWeights.length := by
  rw [buf_length]
  cases b <;> decide

/-- R87: the greatest value of a buffer is the sum of its cells' weights. -/
theorem bufMax_eq_sum (s : State) (b : Buf) : bufMax b = (bcdWeights.take (s.buf b).length).sum := by
  rw [buf_length]
  cases b <;> rfl

theorem bcdDecode_buf_le (s : State) (b : Buf) : bcdDecode (s.buf b) ≤ bufMax b := by
  rw [bufMax_eq_sum s]
  exact weigh_le_sum_take _ _

/-- Settles O17: the two ends of `weigh` at the table of R80, whose weights are positive. -/
theorem decodedFieldRanges : Obligations.DecodedFieldRanges := by
  intro s b
  have hlen := buf_length_le_bcdWeights s b
  refine ⟨bcdDecode_buf_le s b, ?_, weigh_eq_zero_iff bcdWeights_pos hlen⟩
  rw [bufMax_eq_sum s]
  exact weigh_eq_sum_take_iff bcdWeights_pos hlen

/-- The model's conditional warning and the statements' reading of the parity check agree. -/
@[simp] theorem eventIf_parityFail (cells : List Trit) (p : Trit) (w : Event) :
    eventIf (parityFail cells p) w = parityEvents cells p w := by
  have hlnot : lnot p = if p = .zero then 1 else 0 := by cases p <;> rfl
  simp only [eventIf, parityEvents, parityFail_eq_true_iff, popcount_eq_count, hlnot]

/-- The warning of the flag pair (R151). -/
@[simp] theorem eventIf_resolveTz (a b : Trit) : eventIf (resolveTz a b).2 .wTz = tzEvents a b := by
  cases a <;> cases b <;> rfl

/-- The offset of the flag pair (R151). -/
@[simp] theorem resolveTz_fst (a b : Trit) : (resolveTz a b).1 = tzOffsetOf a b := by
  cases a <;> cases b <;> rfl

end Sys2Proof.Proofs
end

section
/-! PROOFS. The operations one by one: fixed bits, echoes and announcements (spec 41_status_positions.md R100 to
R107), date fields (43_date_fields.md R130 to R138), the marker (44_minute_boundary.md R150, R151). -/

namespace Sys2Proof.Proofs

open Sys2Proof.Machine Sys2Proof.Safety Sys2Proof.Laws

/-- Settles O18: the rows of START and TMARK, and their arms for each of the three trits. -/
theorem fixedBitsWarnUnlessRight : Obligations.FixedBitsWarnUnlessRight := by
  intro v s
  cases v with
  | zero => exact ⟨rfl, rfl, rfl, rfl⟩
  | one => exact ⟨rfl, rfl, rfl, rfl⟩
  | invalid => exact ⟨rfl, rfl, rfl, rfl⟩

/-- Settles O19: the row of WX and its arm. -/
theorem weatherBitsAreEchoedAndNotKept : Obligations.WeatherBitsAreEchoedAndNotKept :=
  fun v _ => ⟨fun _ => select_bit_eq_wx v, rfl⟩

/-- Settles O20: the row of CALL and its arm. -/
theorem callBitIsEchoed : Obligations.CallBitIsEchoed := fun _ _ => ⟨rfl, rfl⟩

/-- Settles O21: the rows of DSTANN and LEAPANN, and their arms for each of the three trits. -/
theorem announcementsOnlyIfOne : Obligations.AnnouncementsOnlyIfOne := by
  intro v s
  cases v with
  | zero => exact ⟨rfl, rfl, rfl, rfl⟩
  | one => exact ⟨rfl, rfl, rfl, rfl⟩
  | invalid => exact ⟨rfl, rfl, rfl, rfl⟩

/-- R130: only SDAY names a cell of DAY. -/
theorem written_eq_day_iff {i : Instr} {n : Nat} {v : Trit} : written i = some (.buf .day n, v) ↔ i = .sday n v := by
  cases i <;> simp [written]

/-- R131, R133: SWDAY and SWDAYL name the cells of WDAY, SWDAYL the last one. -/
theorem written_eq_wday_iff {i : Instr} {n : Nat} {v : Trit} :
    written i = some (.buf .wday n, v) ↔ i = .swday n v ∨ (n = 2 ∧ i = .swdayl v) := by
  cases i <;> simp [written, eq_comm]

/-- R134: only SMON names a cell of MON. -/
theorem written_eq_mon_iff {i : Instr} {n : Nat} {v : Trit} : written i = some (.buf .mon n, v) ↔ i = .smon n v := by
  cases i <;> simp [written]

/-- R135: only SYEAR names a cell of YEAR. -/
theorem written_eq_year_iff {i : Instr} {n : Nat} {v : Trit} :
    written i = some (.buf .year n, v) ↔ i = .syear n v := by
  cases i <;> simp [written]

section
variable {i : Instr} {s t : State}

theorem exec_day_of_ne_sday (h : exec i s = .next t) (hi : ∀ n v, i ≠ .sday n v) : t.day = s.day :=
  Vector.toList_inj.mp (exec_buf_of_not_written (b := .day) h fun n v hw => hi n v (written_eq_day_iff.mp hw))

theorem exec_wday_of_ne_swday (h : exec i s = .next t) (hi : ∀ n v, i ≠ .swday n v) (hl : ∀ v, i ≠ .swdayl v) :
    t.wday = s.wday :=
  Vector.toList_inj.mp (exec_buf_of_not_written (b := .wday) h fun n v hw =>
    (written_eq_wday_iff.mp hw).elim (hi n v) fun hlast => hl v hlast.2)

theorem exec_mon_of_ne_smon (h : exec i s = .next t) (hi : ∀ n v, i ≠ .smon n v) : t.mon = s.mon :=
  Vector.toList_inj.mp (exec_buf_of_not_written (b := .mon) h fun n v hw => hi n v (written_eq_mon_iff.mp hw))

theorem exec_year_of_ne_syear (h : exec i s = .next t) (hi : ∀ n v, i ≠ .syear n v) : t.year = s.year :=
  Vector.toList_inj.mp (exec_buf_of_not_written (b := .year) h fun n v hw => hi n v (written_eq_year_iff.mp hw))

end

/-- Settles O27: the four rows, their stores of one cell each (`exec_store`; SWDAY's index 0 or 1 lies in the
three cells of WDAY), and the frame of every other operation. -/
theorem dateBitsAreStored : Obligations.DateBitsAreStored :=
  ⟨fun _ v => ⟨select_bit_eq_sday v, select_bit_eq_swday v, select_bit_eq_smon v, select_bit_eq_syear v⟩,
    fun _ _ s hi => exec_store s rfl hi nofun rfl,
    fun _ _ s hi => exec_store s rfl (Nat.lt_succ_of_lt hi) nofun rfl,
    fun _ _ s hi => exec_store s rfl hi nofun rfl,
    fun _ _ s hi => exec_store s rfl hi nofun rfl,
    fun _ _ _ h => ⟨exec_day_of_ne_sday h, exec_wday_of_ne_swday h, exec_mon_of_ne_smon h, exec_year_of_ne_syear h⟩⟩

/-- The number of three weekday cells once the last holds `v` (R133). -/
theorem bcdDecode_set_last_weekday (w : Vector Trit 3) (v : Trit) :
    bcdDecode (w.set 2 v).toList =
      (if w[0] = .one then 1 else 0) + (if w[1] = .one then 2 else 0) + (if v = .one then 4 else 0) := by
  have hcells : (w.set 2 v).toList = [w[0], w[1], v] := by
    rcases w with ⟨⟨_ | ⟨a, _ | ⟨b, _ | ⟨c, _ | _⟩⟩⟩⟩, hw⟩ <;> simp at hw ⊢
  simp [hcells, bcdDecode, bcdWeights, Nat.add_assoc]

/-- SWDAYL's arm: index 2 lies in WDAY, and the number emitted is that of the cells after the store. -/
theorem exec_swdayl (v : Trit) (s : State) : exec (.swdayl v) s = .next { s with
    cursor := nextCursor s.cursor
    wday := s.wday.set 2 v
    output := s.output ++ [.weekday (bcdDecode (s.wday.set 2 v).toList)] } := by
  have hset : s.wday.setIfInBounds 2 v = s.wday.set 2 v := by
    ext i hi
    simp [Vector.getElem_set, Vector.getElem_setIfInBounds]
  rw [← hset]
  rfl

/-- Settles O28: the row of SWDAYL, and its arm with the number written out. -/
theorem lastWeekdayBitEmitsTheNumber : Obligations.LastWeekdayBitEmitsTheNumber := by
  intro v s
  rw [exec_swdayl, bcdDecode_set_last_weekday]
  exact ⟨rfl, rfl⟩

/-- Settles O30: the row and arm of LEAPNOW; its range is the one cursor value 59 (`select_eq_iff`). -/
theorem leapSecondNoticeIsUnconditional : Obligations.LeapSecondNoticeIsUnconditional := by
  refine ⟨fun _ _ => ⟨rfl, rfl⟩, fun k c w h => ?_, fun c h => by simp [h]⟩
  obtain ⟨-, hlo, hhi⟩ := (select_eq_iff rfl).mp h
  exact Nat.le_antisymm (Nat.le_of_lt_succ hhi) hlo

/-- D5: the cursor is held at 60. -/
theorem nextCursor_of_sixty {c : Cursor} (h : c.val = 60) : nextCursor c = c :=
  Fin.ext (by simp [h])

theorem exec_overrun_of_sixty {s : State} (v : Trit) (h : s.cursor.val = 60) : exec (.overrun v) s = .next s := by
  show Host.Outcome.next { s with cursor := nextCursor s.cursor } = .next s
  rw [nextCursor_of_sixty h]

/-- Settles O31: the row and arm of OVERRUN; at cursor 60 the cursor is held. -/
theorem overrunChangesNothing : Obligations.OverrunChangesNothing :=
  fun v _ => ⟨rfl, rfl, exec_overrun_of_sixty v⟩

/-- Settles O33: MARK's arm, with the warning and the offset of the flag pair as the statement writes them. -/
theorem markEmitsTheFrameOfTheCells : Obligations.MarkEmitsTheFrameOfTheCells := by
  intro s
  rw [← eventIf_resolveTz, ← resolveTz_fst]
  rfl

/-- Settles O34: `resolveTz` has a row for each of the two valid pairs and one for all others. -/
theorem timezoneTableIsTheNineRows : Obligations.TimezoneTableIsTheNineRows := by
  refine ⟨rfl, rfl, fun a b hsummer hwinter => ?_⟩
  unfold resolveTz
  split
  · exact absurd ⟨rfl, rfl⟩ hsummer
  · exact absurd ⟨rfl, rfl⟩ hwinter
  · rfl

/-- Settles O1, by evaluating the reset state at the 37 cells. -/
theorem resetLeavesCursorZeroAndEveryCellZero : Obligations.ResetLeavesCursorZeroAndEveryCellZero :=
  ⟨rfl, rfl, by decide, rfl, rfl⟩

/-- Settles O37: the marker's events at the cells of reset; MARK names no cell. -/
theorem firstFrameFromResetIsZeros : Obligations.FirstFrameFromResetIsZeros := by
  intro rest
  obtain ⟨t, h, -, hcur, hout, hcells⟩ := exec_spec .mark (State.reset.consume rest)
  exact ⟨t, (step_ofToken _ .mark rest rfl).trans h, hout, hcur,
    fun x => (hcells x).trans (State.reset.readCell_consume rest x)⟩

/-- Settles O43: the record after reset is empty. -/
theorem recordInvariantHoldsAtReset : Obligations.RecordInvariantHoldsAtReset := ⟨nofun, rfl⟩

/-- Settles O48: two digits up to 99, where the tens are one digit already; the example by evaluation. -/
theorem renderingPadsToTwoDigits : Obligations.RenderingPadsToTwoDigits := by
  refine ⟨fun n hn => ?_, by decide⟩
  rw [renderField, if_pos hn, digitChar, digitChar, Nat.mod_eq_of_lt (by omega : n / 10 < 10)]

end Sys2Proof.Proofs
end

section
/-! PROOFS. The storage map (spec 20_memory.md R41): which cell a step writes and which cells its events depend on. -/

namespace Sys2Proof.Proofs

open Sys2Proof.Machine Sys2Proof.Safety Sys2Proof.Laws

/-- An operation that writes a cell is selected at that cell's position alone and writes its operand there. -/
theorem cursors_token_of_written {i : Instr} {x : Cell} {v : Trit} (hw : written i = some (x, v)) :
    i.cursors = (cellPosition x, 1) ∧ i.token = .bit v := by
  cases i <;> cases hw <;> exact ⟨rfl, rfl⟩

/-- Every cell of the block is the cell of a well-formed store. -/
theorem exists_store {x : Cell} (hx : x ∈ allCells) (v : Trit) :
    ∃ i : Instr, i.wellFormed = true ∧ written i = some (x, v) := by
  cases x with
  | tz1 => exact ⟨.stz1 v, rfl, rfl⟩
  | tz2 => exact ⟨.stz2 v, rfl, rfl⟩
  | buf b n =>
    have hn : n < bufLen b := buf_mem_allCells_iff.mp hx
    cases b with
    | min => exact ⟨.smin n v, decide_eq_true hn, rfl⟩
    | hour => exact ⟨.shour n v, decide_eq_true hn, rfl⟩
    | day => exact ⟨.sday n v, decide_eq_true hn, rfl⟩
    | mon => exact ⟨.smon n v, decide_eq_true hn, rfl⟩
    | year => exact ⟨.syear n v, decide_eq_true hn, rfl⟩
    | wday =>
      rcases Nat.lt_succ_iff_lt_or_eq.mp hn with hlt | rfl
      · exact ⟨.swday n v, decide_eq_true hlt, rfl⟩
      · exact ⟨.swdayl v, rfl, rfl⟩

/-- A well-formed operation writes none but the block's own cells (R44). -/
theorem mem_allCells_of_written {i : Instr} {x : Cell} {v : Trit} (hi : i.wellFormed = true)
    (hw : written i = some (x, v)) : x ∈ allCells := by
  cases i with
  | stz1 w | stz2 w =>
    cases hw
    simp [allCells]
  | smin n w | shour n w | sday n w | smon n w | syear n w =>
    cases hw
    exact buf_mem_allCells_iff.mpr (of_decide_eq_true hi)
  | swday n w =>
    cases hw
    exact buf_mem_allCells_iff.mpr (Nat.lt_succ_of_lt (of_decide_eq_true hi))
  | swdayl w =>
    cases hw
    exact buf_mem_allCells_iff.mpr (by decide)
  | _ => cases hw

/-- The storage map's column of writes: a bit token writes its trit to the cell whose position is the cursor. -/
theorem written_select_bit_iff {v w : Trit} {c : Cursor} {x : Cell} :
    written (select (.bit v) c) = some (x, w) ↔ x ∈ allCells ∧ cellPosition x = c.val ∧ w = v := by
  constructor
  · intro hw
    obtain ⟨hcur, htok⟩ := cursors_token_of_written hw
    have hc := cursor_mem_cursors_select (.bit v) c
    rw [token_select] at htok
    rw [hcur] at hc
    exact ⟨mem_allCells_of_written (wellFormed_select _ c) hw,
      Nat.le_antisymm hc.1 (Nat.le_of_lt_succ hc.2), by cases htok; rfl⟩
  · rintro ⟨hx, hc, rfl⟩
    obtain ⟨i, hi, hw⟩ := exists_store hx w
    obtain ⟨hcur, htok⟩ := cursors_token_of_written hw
    rw [(select_eq_iff hi).mpr ⟨htok.symm, by simp [hcur, hc]⟩, hw]

/-- The cells after the operation of a bit token. -/
theorem cellAfter_select_bit (s : State) (v : Trit) (c : Cursor) (x : Cell) :
    cellAfter (select (.bit v) c) s x =
      if x ∈ allCells ∧ cellPosition x = c.val then some v else s.readCell x := by
  by_cases hx : x ∈ allCells ∧ cellPosition x = c.val
  · rw [if_pos hx, cellAfter, written_select_bit_iff.mpr ⟨hx.1, hx.2, rfl⟩]
    exact if_pos ⟨rfl, hx.1⟩
  · rw [if_neg hx, cellAfter]
    split
    case h_1 y w hw =>
      obtain ⟨hy, hc, -⟩ := written_select_bit_iff.mp hw
      refine if_neg ?_
      rintro ⟨rfl, -⟩
      exact hx ⟨hy, hc⟩
    case h_2 => rfl

/-- A step on a bit token. -/
theorem step_bit_spec {s : State} {v : Trit} {rest : List PortIn} (hin : s.input = PortIn.ofToken (.bit v) :: rest) :
    ∃ t, step s = .next t ∧ t.input = rest ∧ t.cursor = nextCursor s.cursor ∧
      t.output = s.output ++ emitted (select (.bit v) s.cursor) s ∧
      ∀ x, t.readCell x = if x ∈ allCells ∧ cellPosition x = s.cursor.val then some v else s.readCell x := by
  obtain ⟨t, h, hrest, hcur, hout, hcells⟩ := step_token_spec hin (rst_ofToken _) (token_ofToken _)
  exact ⟨t, h, hrest, hcur, hout, fun x => (hcells x).trans (cellAfter_select_bit s v s.cursor x)⟩

/-- A step on a marker. -/
theorem step_mark_spec {s : State} {rest : List PortIn} (hin : s.input = PortIn.ofToken .mark :: rest) :
    ∃ t, step s = .next t ∧ t.input = rest ∧ t.cursor = 0 ∧ t.output = s.output ++ emitted .mark s ∧
      ∀ x, t.readCell x = s.readCell x :=
  step_token_spec hin (rst_ofToken _) (token_ofToken _)

/-- The cells an operation reads (R41, last column). -/
def reads : Instr → List Cell
  | .mark => [.tz1, .tz2] ++ bufCells .year ++ bufCells .mon ++ bufCells .day ++ bufCells .hour ++ bufCells .min
  | .pmin _ => bufCells .min
  | .phour _ => bufCells .hour
  | .swdayl _ => bufCells .wday
  | .pdate _ => bufCells .day ++ bufCells .wday ++ bufCells .mon ++ bufCells .year
  | _ => []

/-- The storage map's column of reads is that of the operation selected. -/
theorem reads_select (k : Token) (c : Cursor) : reads (select k c) = cellsRead k c.val := by
  cases k with
  | mark => rfl
  | bit v =>
    revert c
    cases v <;> decide

section
variable {s s' : State}

/-- A buffer is its cells. -/
theorem buf_congr {b : Buf} (h : ∀ x ∈ bufCells b, s.readCell x = s'.readCell x) : s.buf b = s'.buf b := by
  refine List.ext_getElem? fun n => ?_
  by_cases hn : n < bufLen b
  · exact h (.buf b n) (List.mem_map_of_mem (List.mem_range.mpr hn))
  · rw [List.getElem?_eq_none (by simpa using hn), List.getElem?_eq_none (by simpa using hn)]

/-- The weekday's first two cells fix the buffer once its last cell is stored (R133). -/
theorem set_last_weekday_congr {v : Trit}
    (h : ∀ n < 2, s.readCell (.buf .wday n) = s'.readCell (.buf .wday n)) :
    (s.buf .wday).set 2 v = (s'.buf .wday).set 2 v := by
  have hset : (s.setCell .wday 2 v).buf .wday = (s'.setCell .wday 2 v).buf .wday := by
    refine buf_congr fun x hx => ?_
    obtain ⟨n, hn, rfl⟩ := List.mem_map.mp hx
    rw [readCell_setCell_after, readCell_setCell_after]
    rcases Nat.lt_succ_iff_lt_or_eq.mp (List.mem_range.mp hn) with hlt | rfl
    · rw [h n hlt]
    · have hlast : Cell.buf .wday 2 ∈ allCells := by decide
      rw [if_pos ⟨rfl, hlast⟩, if_pos ⟨rfl, hlast⟩]
  simpa only [State.buf_setCell, if_true] using hset

/-- The events of an operation depend on no cell but those it reads and does not write itself. -/
theorem emitted_congr {i : Instr}
    (h : ∀ x ∈ reads i, (∀ v, written i ≠ some (x, v)) → s.readCell x = s'.readCell x) :
    emitted i s = emitted i s' := by
  cases i with
  | mark =>
    have hread : ∀ x ∈ reads .mark, s.readCell x = s'.readCell x := fun x hx => h x hx nofun
    have htz1 : s.tz1 = s'.tz1 := Option.some.inj (hread .tz1 (by simp [reads]))
    have htz2 : s.tz2 = s'.tz2 := Option.some.inj (hread .tz2 (by simp [reads]))
    have hbuf : ∀ b ≠ .wday, s.buf b = s'.buf b := by
      refine fun b hb => buf_congr fun x hx => hread x ?_
      cases b with
      | wday => exact absurd rfl hb
      | min | hour | day | mon | year => simp [reads, hx]
    simp [emitted, State.frameResult, htz1, htz2, hbuf]
  | pmin v => rw [emitted, emitted, buf_congr fun x hx => h x hx nofun]
  | phour v => rw [emitted, emitted, buf_congr fun x hx => h x hx nofun]
  | swdayl v =>
    rw [emitted, emitted, set_last_weekday_congr fun n hn => ?_]
    exact h _ (List.mem_map_of_mem (List.mem_range.mpr (Nat.lt_succ_of_lt hn))) (by simp [written]; omega)
  | pdate v =>
    have hday := buf_congr (b := .day) fun x hx => h x (by simp [reads, hx]) nofun
    have hwday := buf_congr (b := .wday) fun x hx => h x (by simp [reads, hx]) nofun
    have hmon := buf_congr (b := .mon) fun x hx => h x (by simp [reads, hx]) nofun
    have hyear := buf_congr (b := .year) fun x hx => h x (by simp [reads, hx]) nofun
    rw [emitted, emitted, State.dateCells, State.dateCells, hday, hwday, hmon, hyear]
  | _ => rfl

/-- The events of an operation on a cell-for-cell equal state. -/
theorem emitted_congr_of_cells (i : Instr) (h : ∀ x, s.readCell x = s'.readCell x) : emitted i s = emitted i s' :=
  emitted_congr fun x _ _ => h x

/-- A cell that holds the same trit before the same operation holds the same after it. -/
theorem cellAfter_congr (i : Instr) {x : Cell} (h : s.readCell x = s'.readCell x) :
    cellAfter i s x = cellAfter i s' x := by
  simp only [cellAfter, h]

end

/-- The events of a step are what it appends to the record. -/
theorem stepEvents_of_next {s t : State} {es : List Event} (h : step s = .next t) (ho : t.output = s.output ++ es) :
    s.stepEvents = es := by
  simp [State.stepEvents, h, ho]

/-- The token that the waiting input presents to the next step, if it presents one (R63, R191). -/
def presented : List PortIn → Option Token
  | [] => none
  | p :: _ => if p.rst then none else p.token

theorem presented_of_token {p : PortIn} {rest : List PortIn} (hr : p.rst = false) :
    presented (p :: rest) = p.token := by
  simp [presented, hr]

/-- What a step appends to the record: the events of the token presented, and nothing without one. -/
theorem step_output (s : State) : ∃ t, step s = .next t ∧
    t.output = s.output ++ (presented s.input).elim [] fun k => emitted (select k s.cursor) s := by
  rcases step_cases s with ⟨hin, h⟩ | ⟨p, rest, hin, hr, h⟩ | ⟨p, rest, hin, hr, ht, h⟩ | ⟨p, rest, k, hin, hr, ht, -⟩
  · exact ⟨_, h, by simp [hin, presented]⟩
  · exact ⟨_, h, by simp [hin, presented, hr]⟩
  · exact ⟨_, h, by simp [hin, presented, ht]⟩
  · obtain ⟨t, h, -, -, hout, -⟩ := step_token_spec hin hr ht
    exact ⟨t, h, by simp [hin, presented_of_token hr, ht, hout]⟩

theorem stepEvents_eq (s : State) :
    s.stepEvents = (presented s.input).elim [] fun k => emitted (select k s.cursor) s := by
  obtain ⟨t, h, hout⟩ := step_output s
  exact stepEvents_of_next h hout

/-- A step appends its events to the record. -/
theorem output_of_step {s t : State} (h : step s = .next t) : t.output = s.output ++ s.stepEvents := by
  obtain ⟨u, hu, hout⟩ := step_output s
  obtain rfl : t = u := by simpa [h] using hu
  rw [stepEvents_eq, hout]

theorem stepEvents_ofToken {s : State} {k : Token} {rest : List PortIn} (hin : s.input = PortIn.ofToken k :: rest) :
    s.stepEvents = emitted (select k s.cursor) s := by
  rw [stepEvents_eq, hin, presented_of_token (rst_ofToken k), token_ofToken]
  rfl

/-- Settles O38: the one cell written (`step_bit_spec`), none for a marker, and the cells read (`emitted_congr`). -/
theorem storageMapIsEveryAccess : Obligations.StorageMapIsEveryAccess := by
  refine ⟨fun s v rest hin => ?_, fun s rest hin => ?_, fun k s s' rest rest' hin hin' hcur hread => ?_⟩
  · obtain ⟨t, h, -, -, -, hcells⟩ := step_bit_spec hin
    exact ⟨t, h, hcells⟩
  · obtain ⟨t, h, -, -, -, hcells⟩ := step_mark_spec hin
    exact ⟨t, h, hcells⟩
  · rw [stepEvents_ofToken hin, stepEvents_ofToken hin', ← hcur]
    rw [← reads_select] at hread
    exact emitted_congr fun x hx _ => hread x hx

/-- Settles O39: in each kind of cycle both steps do the same, and a cell's new value depends on that cell alone
(`cellAfter_congr`). -/
theorem cellsDoNotSteerTheBlock : Obligations.CellsDoNotSteerTheBlock := by
  intro s s' hcur hin
  rcases step_cases s with ⟨hs, h⟩ | ⟨p, rest, hs, hr, h⟩ | ⟨p, rest, hs, hr, ht, h⟩ | ⟨p, rest, k, hs, hr, ht, -⟩
  · exact ⟨s, s', h, step_of_nil (hin.symm.trans hs), hcur, hin, fun _ hx => hx⟩
  · exact ⟨_, _, h, step_of_rst (hin.symm.trans hs) hr, rfl, rfl,
      fun x _ => (s.readCell_resetCycle rest x).trans (s'.readCell_resetCycle rest x).symm⟩
  · exact ⟨_, _, h, step_of_no_token (hin.symm.trans hs) hr ht, hcur, rfl, fun x hx => by simpa using hx⟩
  · obtain ⟨t, h, hi, hc, -, hx⟩ := step_token_spec hs hr ht
    obtain ⟨t', h', hi', hc', -, hx'⟩ := step_token_spec (s := s') (hin.symm.trans hs) hr ht
    exact ⟨t, t', h, h', by rw [hc, hc', hcur], by rw [hi, hi'],
      fun x heq => by rw [hx, hx', hcur, cellAfter_congr _ heq]⟩

/-- Equal cursor, cells and input give equal events. -/
theorem stepEvents_congr {s s' : State} (h : sameBlock s s') (hin : s.input = s'.input) :
    s.stepEvents = s'.stepEvents := by
  obtain ⟨hcur, hcells⟩ := h
  simp only [stepEvents_eq, hin, hcur, emitted_congr_of_cells _ hcells]

/-- Settles O40, by induction on the number of steps: one step keeps cursor, cells and input equal
(`cellsDoNotSteerTheBlock`) and emits equal events. -/
theorem equalCellsGiveEqualEventsForever : Obligations.EqualCellsGiveEqualEventsForever := by
  intro k
  induction k with
  | zero => exact fun s s' hsame _ => ⟨s, s', [], rfl, rfl, hsame, by simp, by simp⟩
  | succ k ih =>
    intro s s' hsame hin
    obtain ⟨u, u', h, h', hcur, hin', hcells⟩ := cellsDoNotSteerTheBlock s s' hsame.1 hin
    obtain ⟨t, t', es, hrun, hrun', hsame', hout, hout'⟩ := ih u u' ⟨hcur, fun x => hcells x (hsame.2 x)⟩ hin'
    refine ⟨t, t', s.stepEvents ++ es, (runSteps_succ k s u h).trans hrun, (runSteps_succ k s' u' h').trans hrun',
      hsame', ?_, ?_⟩
    · rw [hout, output_of_step h, List.append_assoc]
    · rw [hout', output_of_step h', ← stepEvents_congr hsame hin, List.append_assoc]

end Sys2Proof.Proofs
end

section
/-! PROOFS. What one step can append to the record (spec 30_encoding.md R62, R63, 40_bcd_parity.md R87,
44_minute_boundary.md R150, R151): the record invariant and the two output slots. -/

namespace Sys2Proof.Proofs

open Sys2Proof.Machine Sys2Proof.Safety Sys2Proof.Laws

/-- An event that is no part of a marker's pair: neither `W_TZ` nor a frame. -/
def standsAlone : Event → Bool
  | .wTz => false
  | .frame _ => false
  | _ => true

/-- The events of one step: none, one that stands alone, a frame with an offset, or a warned frame with offset 0. -/
inductive StepRecord : List Event → Prop
  | silent : StepRecord []
  | single (e : Event) (hrange : eventInRange e = true) (halone : standsAlone e = true) : StepRecord [e]
  | frame (f : Frame) (hrange : eventInRange (.frame f) = true) (hoffset : f.tzOffset ≠ 0) : StepRecord [.frame f]
  | warnedFrame (f : Frame) (hrange : eventInRange (.frame f) = true) (hoffset : f.tzOffset = 0) :
    StepRecord [.wTz, .frame f]

theorem stepRecord_eventIf (b : Bool) {e : Event} (hrange : eventInRange e = true) (halone : standsAlone e = true) :
    StepRecord (eventIf b e) := by
  cases b with
  | false => exact .silent
  | true => exact .single e hrange halone

/-- R151: the pair has the warning exactly when its offset is 0. -/
theorem tzEvents_eq (a b : Trit) : tzEvents a b = if tzOffsetOf a b = 0 then [.wTz] else [] := by
  cases a <;> cases b <;> rfl

theorem tzOffsetOf_le (a b : Trit) : tzOffsetOf a b ≤ 2 := by
  cases a <;> cases b <;> decide

/-- R87, R151: the ranges of a frame's six numbers. -/
theorem frame_inRange_iff {f : Frame} : eventInRange (.frame f) = true ↔
    f.year ≤ 165 ∧ f.month ≤ 25 ∧ f.day ≤ 45 ∧ f.hour ≤ 45 ∧ f.minute ≤ 85 ∧ f.tzOffset ≤ 2 := by
  simp [eventInRange, and_assoc]

/-- R87: the frame decoded from the cells is in range, whatever they hold. -/
theorem frameResult_inRange (s : State) {o : Nat} (ho : o ≤ 2) : eventInRange (.frame (s.frameResult o)) = true := by
  have hle := bcdDecode_buf_le s
  exact frame_inRange_iff.mpr ⟨hle .year, hle .mon, hle .day, hle .hour, hle .min, ho⟩

/-- R87: the weekday's number is in range once its last cell is stored. -/
theorem weekday_le (s : State) (v : Trit) : bcdDecode ((s.buf .wday).set 2 v) ≤ 7 := by
  have hle := bcdDecode_buf_le (s.setCell .wday 2 v) .wday
  rwa [State.buf_setCell, if_pos rfl] at hle

/-- MARK's events, as the statements write them (R150). -/
theorem emitted_mark (s : State) :
    emitted .mark s = tzEvents s.tz1 s.tz2 ++ [.frame (s.frameResult (tzOffsetOf s.tz1 s.tz2))] := by
  simp [emitted]

theorem stepRecord_mark (s : State) : StepRecord (emitted .mark s) := by
  have hrange := frameResult_inRange s (tzOffsetOf_le s.tz1 s.tz2)
  rw [emitted_mark, tzEvents_eq]
  split_ifs with ho
  · exact .warnedFrame _ hrange ho
  · exact .frame _ hrange ho

theorem stepRecord_emitted (i : Instr) (s : State) : StepRecord (emitted i s) := by
  cases i with
  | mark => exact stepRecord_mark s
  | start v | dstann v | leapann v | tmark v | pmin v | phour v | pdate v => exact stepRecord_eventIf _ rfl rfl
  | wx v | call v | leapnow v => exact .single _ rfl rfl
  | swdayl v => exact .single _ (decide_eq_true (weekday_le s v)) rfl
  | stz1 v | stz2 v | overrun v => exact .silent
  | smin n v | shour n v | sday n v | swday n v | smon n v | syear n v => exact .silent

/-- Every step's events are of one of the four forms. -/
theorem stepRecord_stepEvents (s : State) : StepRecord s.stepEvents := by
  rw [stepEvents_eq]
  cases presented s.input with
  | none => exact .silent
  | some k => exact stepRecord_emitted _ s

/-- A record that is paired stays so under exactly the paired continuations. -/
theorem tzPaired_append {es es' : List Event} (h : tzPaired es = true) : tzPaired (es ++ es') = tzPaired es' := by
  fun_induction tzPaired es with
  | case1 => rfl
  | case2 f es ih =>
    obtain ⟨hoffset, hrest⟩ := Bool.and_eq_true_iff.mp h
    simp [tzPaired, hoffset, ih hrest]
  | case3 => cases h
  | case4 f es ih =>
    obtain ⟨hoffset, hrest⟩ := Bool.and_eq_true_iff.mp h
    simp [tzPaired, hoffset, ih hrest]
  | case5 e es hwarned hwarning hframe ih =>
    rw [List.cons_append, tzPaired]
    · exact ih h
    all_goals simp_all

theorem tzPaired_stepRecord {es : List Event} (h : StepRecord es) : tzPaired es = true := by
  cases h with
  | silent => rfl
  | single e _ halone => 
    cases e with
    | wTz => cases halone
    | frame f => cases halone
    | _ => rfl
  | frame f _ hoffset => simp [tzPaired, hoffset]
  | warnedFrame f _ hoffset => simp [tzPaired, hoffset]

theorem inRange_stepRecord {es : List Event} (h : StepRecord es) : ∀ e ∈ es, eventInRange e = true := by
  cases h with
  | silent => nofun
  | single e hrange _ => simpa using hrange
  | frame f hrange _ => simpa using hrange
  | warnedFrame f hrange _ => simpa [eventInRange] using hrange

/-- Settles O42: a step appends one of the four forms of events, each in range and paired. -/
theorem stepKeepsTheRecordInvariant : Obligations.StepKeepsTheRecordInvariant := by
  intro s t hok h
  obtain ⟨hrange, hpaired⟩ := hok
  have hrecord := stepRecord_stepEvents s
  rw [recordOk, output_of_step h, tzPaired_append hpaired, List.forall_mem_append]
  exact ⟨⟨hrange, inRange_stepRecord hrecord⟩, tzPaired_stepRecord hrecord⟩

/-- R21: the slot argument of WX and CALL is read back as its trit. -/
@[simp] theorem tritOfArg_num (v : Trit) : tritOfArg (BitVec.ofNat 3 v.num) = some v := by
  cases v <;> rfl

/-- R87: every field of a frame in range fits its width at the port (R4). -/
theorem slotB_event_ofFrame {f : Frame} (h : eventInRange (.frame f) = true) :
    (SlotB.ofFrame f).event = .frame f := by
  obtain ⟨hyear, hmonth, hday, hhour, hminute, htz⟩ := frame_inRange_iff.mp h
  simp only [SlotB.event, SlotB.ofFrame, BitVec.toNat_ofNat]
  congr <;> omega

/-- An event that stands alone goes out at slot A and is read back from it. -/
theorem slotA_event_of_standsAlone {e : Event} (hrange : eventInRange e = true) (halone : standsAlone e = true) :
    (PortOut.ofEvents [e]).events = [e] := by
  cases e with
  | wTz => cases halone
  | frame f => cases halone
  | wx v | call v =>
    simp [PortOut.ofEvents, PortOut.place, PortOut.events, SlotA.event, Event.code, Event.arg]
  | weekday n =>
    have hn : n ≤ 7 := of_decide_eq_true hrange
    have hfits : n % 8 = n := Nat.mod_eq_of_lt (by omega)
    simp [PortOut.ofEvents, PortOut.place, PortOut.events, SlotA.event, Event.code, Event.arg, hfits]
  | _ => rfl

/-- The two slots carry every form of a step's events in order. -/
theorem events_ofEvents {es : List Event} (h : StepRecord es) : (PortOut.ofEvents es).events = es := by
  cases h with
  | silent => rfl
  | single e hrange halone => exact slotA_event_of_standsAlone hrange halone
  | frame f hrange _ => exact congrArg (fun e => [e]) (slotB_event_ofFrame hrange)
  | warnedFrame f hrange _ => exact congrArg (fun e => [.wTz, e]) (slotB_event_ofFrame hrange)

theorem length_stepRecord_le {es : List Event} (h : StepRecord es) : es.length ≤ 2 := by
  cases h <;> simp

theorem eq_warnedFrame_of_length {es : List Event} (h : StepRecord es) (hlen : es.length = 2) :
    ∃ f, es = [.wTz, .frame f] := by
  cases h with
  | warnedFrame f _ _ => exact ⟨f, rfl⟩
  | _ => simp at hlen

/-- Settles O41: each of the four forms of a step's events passes through the slots. -/
theorem outputSlotsCarryEveryEvent : Obligations.OutputSlotsCarryEveryEvent := by
  intro s
  obtain ⟨t, h⟩ := exists_step s
  have hrecord := stepRecord_stepEvents s
  exact ⟨⟨t, h, output_of_step h⟩, events_ofEvents hrecord, length_stepRecord_le hrecord,
    eq_warnedFrame_of_length hrecord⟩

end Sys2Proof.Proofs
end

section
/-! PROOFS. Runs of the block: overlong minutes (spec 43_date_fields.md R138), repeated markers
(70_reset_and_hazards.md R198), and bit tokens at the positions of the minute (20_memory.md R41). -/

namespace Sys2Proof.Proofs

open Sys2Proof.Machine Sys2Proof.Safety Sys2Proof.Laws

/-- Settles O32, by induction on the bit tokens: each is OVERRUN's, which keeps the state at cursor 60. -/
theorem overlongMinuteIsIgnored : Obligations.OverlongMinuteIsIgnored := by
  intro bits
  induction bits with
  | nil =>
    intro s rest _ hin
    obtain rfl : s.input = rest := hin
    rfl
  | cons v bits ih =>
    intro s rest hc hin
    have hsel : select (.bit v) s.cursor = .overrun v := (select_eq_iff rfl).mpr ⟨rfl, by simp [Instr.cursors, hc]⟩
    have hstep : step s = .next (s.consume (bitCycles bits ++ rest)) := by
      rw [step_ofToken s (.bit v) _ hin, hsel]
      exact exec_overrun_of_sixty v hc
    exact (runSteps_succ _ _ _ hstep).trans (ih _ rest hc rfl)

/-- A run of markers emits the same events each time, since no cell changes (R153). -/
theorem runSteps_marks (n : Nat) {s : State} {rest : List PortIn}
    (hin : s.input = List.replicate n (PortIn.ofToken .mark) ++ rest) :
    ∃ t : State, runSteps n s = .next t ∧ t.input = rest ∧ (∀ x, t.readCell x = s.readCell x) ∧
      t.output = s.output ++ (List.replicate n (emitted .mark s)).flatten := by
  induction n generalizing s with
  | zero => exact ⟨s, rfl, hin, fun _ => rfl, by simp⟩
  | succ n ih =>
    obtain ⟨u, h, hrest, -, hout, hcells⟩ := step_mark_spec (s := s) hin
    obtain ⟨t, hrun, hin', hcells', hout'⟩ := ih hrest
    refine ⟨t, (runSteps_succ n s u h).trans hrun, hin', fun x => (hcells' x).trans (hcells x), ?_⟩
    rw [hout', hout, emitted_congr_of_cells .mark hcells, List.replicate_succ, List.flatten_cons, List.append_assoc]

/-- Settles O36: each empty line is a marker, and `runSteps_marks` with MARK's events written out. -/
theorem repeatedMarkersRepeatTheFrame : Obligations.RepeatedMarkersRepeatTheFrame := by
  refine ⟨fun n => by simp [captureInput], fun n s rest hin => ?_⟩
  rw [← emitted_mark]
  exact runSteps_marks n hin

/-- The state whose every cell holds what `f` says of its position; cursor, input and record are those of reset. -/
def painted (f : Nat → Trit) : State :=
  { State.reset with
    min := Vector.ofFn fun i => f (21 + i)
    hour := Vector.ofFn fun i => f (29 + i)
    day := Vector.ofFn fun i => f (36 + i)
    wday := Vector.ofFn fun i => f (42 + i)
    mon := Vector.ofFn fun i => f (45 + i)
    year := Vector.ofFn fun i => f (50 + i)
    tz1 := f 17
    tz2 := f 18 }

/-- The buffers of a painted state are the trits at its positions, in their order. -/
theorem buf_painted (f : Nat → Trit) (b : Buf) :
    (painted f).buf b = (List.range' (bufBase b) (bufLen b)).map f := by
  cases b <;> rfl

theorem readCell_painted (f : Nat → Trit) {x : Cell} (hx : x ∈ allCells) :
    (painted f).readCell x = some (f (cellPosition x)) := by
  cases x with
  | tz1 => rfl
  | tz2 => rfl
  | buf b n =>
    have hn : n < bufLen b := buf_mem_allCells_iff.mp hx
    simp [State.readCell, buf_painted, cellPosition, hn]

/-- The events of the bit token at position `n` of a minute whose bits are `f`. -/
def bitEvents (f : Nat → Trit) (n : Nat) : List Event :=
  emitted (select (.bit (f n)) (Fin.ofNat 61 n)) (painted f)

/-- R41: a step on a bit token reads only cells of positions up to the cursor. -/
theorem cellsRead_bit_spec (v : Trit) (c : Cursor) :
    ∀ x ∈ cellsRead (.bit v) c.val, x ∈ allCells ∧ cellPosition x ≤ c.val := by
  have hzero : ∀ c : Cursor, ∀ x ∈ cellsRead (.bit .zero) c.val, x ∈ allCells ∧ cellPosition x ≤ c.val := by decide
  exact hzero c

/-- A bit token whose cells already hold the minute's bits emits the events of its position; the cell it stores
itself need not hold its bit yet. -/
theorem emitted_eq_bitEvents {f : Nat → Trit} {s : State} {c : Nat} (hc : s.cursor.val = c)
    (h : ∀ x ∈ cellsRead (.bit (f c)) c, cellPosition x < c → s.readCell x = some (f (cellPosition x))) :
    emitted (select (.bit (f c)) s.cursor) s = bitEvents f c := by
  subst hc
  rw [bitEvents, Fin.ofNat_val_eq_self]
  refine emitted_congr fun x hx hnew => ?_
  rw [reads_select] at hx
  obtain ⟨hcell, hle⟩ := cellsRead_bit_spec _ _ x hx
  have hne : cellPosition x ≠ s.cursor.val := fun hpos => hnew _ (written_select_bit_iff.mpr ⟨hcell, hpos, rfl⟩)
  rw [readCell_painted f hcell, h x hx (Nat.lt_of_le_of_ne hle hne)]

/-- From `s` to `t` the cells at positions `lo` to `hi - 1` took what `f` says of their position, and the other
cells stand. -/
def takesBits (f : Nat → Trit) (lo hi : Nat) (s t : State) : Prop :=
  ∀ x ∈ allCells, t.readCell x =
    if lo ≤ cellPosition x ∧ cellPosition x < hi then some (f (cellPosition x)) else s.readCell x

/-- A buffer whose positions were all taken holds their trits. -/
theorem buf_eq_of_takesBits {f : Nat → Trit} {lo hi : Nat} {s t : State} (h : takesBits f lo hi s t) {b : Buf}
    (hlo : lo ≤ bufBase b) (hhi : bufBase b + bufLen b ≤ hi) :
    t.buf b = (List.range' (bufBase b) (bufLen b)).map f := by
  rw [← buf_painted]
  refine buf_congr fun x hx => ?_
  obtain ⟨n, hn, rfl⟩ := List.mem_map.mp hx
  have hn' := List.mem_range.mp hn
  have hcell : Cell.buf b n ∈ allCells := buf_mem_allCells_iff.mpr hn'
  rw [h _ hcell, readCell_painted f hcell, if_pos]
  simp only [cellPosition]
  omega

/-- One more bit token, at the cursor, extends the positions taken by one. -/
theorem takesBits_step {f : Nat → Trit} {lo hi : Nat} (hle : lo ≤ hi) {s u t : State} (h : takesBits f lo hi s u)
    (hcells : ∀ x, t.readCell x = if x ∈ allCells ∧ cellPosition x = hi then some (f hi) else u.readCell x) :
    takesBits f lo (hi + 1) s t := by
  intro x hx
  rw [hcells, h x hx]
  by_cases hpos : cellPosition x = hi
  · rw [if_pos ⟨hx, hpos⟩, if_pos (by omega), hpos]
  · have hiff : (lo ≤ cellPosition x ∧ cellPosition x < hi + 1) ↔ (lo ≤ cellPosition x ∧ cellPosition x < hi) := by
      omega
    rw [if_neg fun hxy => hpos hxy.2]
    simp only [hiff]

/-- A run of the bit tokens at positions `lo` to `lo + n - 1`, provided that no operation on the way reads a cell of
a position before `lo`: the cells of those positions take their bits, and the events are those of the positions. -/
theorem runSteps_bits (f : Nat → Trit) (lo n : Nat) {s : State} {rest : List PortIn} (hcur : s.cursor.val = lo)
    (hn : lo + n ≤ 60) (hin : s.input = bitCycles ((List.range' lo n).map f) ++ rest)
    (hreads : ∀ c ∈ List.range' lo n, ∀ x ∈ cellsRead (.bit .zero) c, lo ≤ cellPosition x) :
    ∃ t : State, runSteps n s = .next t ∧ t.cursor.val = lo + n ∧ t.input = rest ∧ takesBits f lo (lo + n) s t ∧
      t.output = s.output ++ (List.range' lo n).flatMap (bitEvents f) := by
  induction n generalizing rest with
  | zero => exact ⟨s, rfl, hcur, hin, fun x _ => (if_neg (by omega)).symm, by simp⟩
  | succ n ih =>
    rw [List.range'_1_concat] at hin hreads
    obtain ⟨u, hrun, hcur', hin', htaken, hout⟩ := ih (rest := PortIn.ofToken (.bit (f (lo + n))) :: rest) (by omega)
      (by simpa [bitCycles] using hin) fun c hc => hreads c (List.mem_append_left _ hc)
    obtain ⟨t, h, hrest, hnext, hout', hcells⟩ := step_bit_spec hin'
    have hevents : emitted (select (.bit (f (lo + n))) u.cursor) u = bitEvents f (lo + n) := by
      refine emitted_eq_bitEvents hcur' fun x hx hlt => ?_
      have hlo := hreads (lo + n) (List.mem_append_right _ (List.mem_singleton_self _)) x hx
      have hcell := (cellsRead_bit_spec _ _ x (hcur' ▸ hx)).1
      rw [htaken x hcell, if_pos ⟨hlo, hlt⟩]
    refine ⟨t, (runSteps_add n 1 s u hrun).trans (runSteps_succ 0 u t h), ?_, hrest, ?_, ?_⟩
    · rw [hnext, nextCursor_val, hcur']
      omega
    · exact takesBits_step (Nat.le_add_right lo n) htaken (hcur' ▸ hcells)
    · rw [hout', hout, hevents, List.range'_1_concat, List.flatMap_append, List.flatMap_singleton, List.append_assoc]

/-- A stretch of the minute, by position. -/
theorem map_bitAt (bits : List Trit) (lo n : Nat) (h : lo + n ≤ bits.length) :
    (List.range' lo n).map (bitAt bits) = slice bits lo n := by
  refine List.ext_getElem (by simp [slice]; omega) fun i hi _ => ?_
  have hbit : lo + i < bits.length := by simp at hi; omega
  simp [slice, bitAt, hbit]

/-- Settles O44: the run of the positions 0 to `k - 1`. -/
theorem cutMinuteMixesNewAndOldCells : Obligations.CutMinuteMixesNewAndOldCells := by
  intro bits s rest hcur hlen hin
  have hbits : (List.range' 0 bits.length).map (bitAt bits) = bits := by
    simp [map_bitAt, slice]
  obtain ⟨t, hrun, hcur', hrest, htaken, -⟩ := runSteps_bits (bitAt bits) 0 bits.length hcur (by omega)
    (by rwa [hbits]) fun _ _ _ _ => Nat.zero_le _
  refine ⟨t, hrun, by rw [hcur', Nat.zero_add], hrest, fun x hx => ?_⟩
  rw [htaken x hx]
  by_cases hpos : cellPosition x < bits.length
  · simp [hpos, bitAt]
  · simp [hpos]

end Sys2Proof.Proofs
end

section
/-! PROOFS. The minute as a whole (spec 42_time_fields.md R121, R123, 43_date_fields.md R136, 44_minute_boundary.md
consequences): the events of each stretch of positions, then the runs that are made of such stretches. -/

namespace Sys2Proof.Proofs

open Sys2Proof.Machine Sys2Proof.Safety Sys2Proof.Laws

/-- The operations that store their trit and emit nothing. -/
def isSilentStore : Instr → Bool
  | .stz1 _ | .stz2 _ | .smin _ _ | .shour _ _ | .sday _ _ | .swday _ _ | .smon _ _ | .syear _ _ => true
  | _ => false

theorem emitted_of_isSilentStore {i : Instr} (h : isSilentStore i = true) (s : State) : emitted i s = [] := by
  cases i with
  | stz1 v | stz2 v => rfl
  | smin n v | shour n v | sday n v | swday n v | smon n v | syear n v => rfl
  | _ => cases h

/-- R64: whether a position's operation is a silent store does not depend on the trit. -/
theorem isSilentStore_select_bit_eq (c : Cursor) (v w : Trit) :
    isSilentStore (select (.bit v) c) = isSilentStore (select (.bit w) c) := by
  simp only [select, selectBit, apply_ite isSilentStore]
  rfl

section
variable (f : Nat → Trit)

/-- Positions whose operations are silent stores emit nothing. -/
theorem flatMap_bitEvents_of_silent {l : List Nat}
    (h : ∀ c ∈ l, isSilentStore (select (.bit .zero) (Fin.ofNat 61 c)) = true) : l.flatMap (bitEvents f) = [] :=
  List.flatMap_eq_nil_iff.mpr fun c hc =>
    emitted_of_isSilentStore ((isSilentStore_select_bit_eq _ _ _).trans (h c hc)) (painted f)

/-- R101: the weather positions echo their bits. -/
theorem flatMap_bitEvents_weather : (List.range' 1 14).flatMap (bitEvents f) = ((List.range' 1 14).map f).map .wx := by
  have hwx : ∀ c ∈ List.range' 1 14, bitEvents f c = [.wx (f c)] := by
    intro c hc
    obtain ⟨hlo, hhi⟩ := List.mem_range'_1.mp hc
    have hval : (Fin.ofNat 61 c).val = c := Nat.mod_eq_of_lt (by omega)
    rw [bitEvents, select_bit_eq_wx _ (by omega) (by omega)]
    rfl
  rw [List.flatMap_congr hwx, List.map_map]
  exact List.flatMap_pure_eq_map _ _

theorem bitEvents_start : bitEvents f 0 = if f 0 = .zero then [] else [.wStart] := by
  show eventIf (f 0 != .zero) .wStart = _
  cases f 0 <;> rfl

theorem bitEvents_dstann : bitEvents f 16 = if f 16 = .one then [.dstAnn] else [] := by
  show eventIf (f 16 == .one) .dstAnn = _
  cases f 16 <;> rfl

theorem bitEvents_leapann : bitEvents f 19 = if f 19 = .one then [.leapAnn] else [] := by
  show eventIf (f 19 == .one) .leapAnn = _
  cases f 19 <;> rfl

theorem bitEvents_tmark : bitEvents f 20 = if f 20 = .one then [] else [.wTmark] := by
  show eventIf (f 20 != .one) .wTmark = _
  cases f 20 <;> rfl

/-- R121: the minute's parity check sees the seven bits before it. -/
theorem bitEvents_pmin : bitEvents f 28 = parityEvents ((List.range' 21 7).map f) (f 28) .wParMin :=
  eventIf_parityFail _ _ _

/-- R123: the hour's parity check sees the six bits before it. -/
theorem bitEvents_phour : bitEvents f 35 = parityEvents ((List.range' 29 6).map f) (f 35) .wParHour :=
  eventIf_parityFail _ _ _

/-- R43, R136: the 22 date cells are the bits at positions 36 to 57. -/
theorem dateCells_painted : (painted f).dateCells = (List.range' 36 22).map f := by
  simp only [State.dateCells, buf_painted, ← List.map_append]
  rfl

/-- R136: the date's parity check sees the 22 bits before it. -/
theorem bitEvents_pdate : bitEvents f 58 = parityEvents ((List.range' 36 22).map f) (f 58) .wParDate := by
  rw [← dateCells_painted, ← eventIf_parityFail]
  rfl

/-- R133: the weekday's number is that of the bits at positions 42 to 44. -/
theorem bitEvents_swdayl : bitEvents f 44 = [.weekday (bcdDecode ((List.range' 42 3).map f))] := by
  have hsel : select (.bit (f 44)) (Fin.ofNat 61 44) = .swdayl (f 44) := rfl
  have hcells : ((painted f).buf .wday).set 2 (f 44) = (List.range' 42 3).map f := by
    rw [buf_painted]
    rfl
  rw [bitEvents, hsel, emitted, hcells]

/-- R120, R121: positions 21 to 28. -/
theorem flatMap_bitEvents_minute : (List.range' 21 8).flatMap (bitEvents f) =
    parityEvents ((List.range' 21 7).map f) (f 28) .wParMin := by
  have hstores := flatMap_bitEvents_of_silent f (l := List.range' 21 7) (by decide)
  rw [List.range'_1_concat, List.flatMap_append, hstores, List.flatMap_singleton, List.nil_append]
  exact bitEvents_pmin f

/-- R122, R123: positions 29 to 35. -/
theorem flatMap_bitEvents_hour : (List.range' 29 7).flatMap (bitEvents f) =
    parityEvents ((List.range' 29 6).map f) (f 35) .wParHour := by
  have hstores := flatMap_bitEvents_of_silent f (l := List.range' 29 6) (by decide)
  rw [List.range'_1_concat, List.flatMap_append, hstores, List.flatMap_singleton, List.nil_append]
  exact bitEvents_phour f

/-- R130 to R136: positions 36 to 58. -/
theorem flatMap_bitEvents_date : (List.range' 36 23).flatMap (bitEvents f) =
    [.weekday (bcdDecode ((List.range' 42 3).map f))] ++
      parityEvents ((List.range' 36 22).map f) (f 58) .wParDate := by
  have hsplit : List.range' 36 23 = List.range' 36 8 ++ ([44] ++ (List.range' 45 13 ++ [58])) := rfl
  have hday := flatMap_bitEvents_of_silent f (l := List.range' 36 8) (by decide)
  have hyear := flatMap_bitEvents_of_silent f (l := List.range' 45 13) (by decide)
  simp only [hsplit, List.flatMap_append, List.flatMap_singleton, hday, hyear, bitEvents_swdayl, bitEvents_pdate,
    List.nil_append]

/-- R100 to R107: positions 0 to 20. -/
theorem flatMap_bitEvents_status : (List.range' 0 21).flatMap (bitEvents f) =
    (if f 0 = .zero then [] else [Event.wStart]) ++ ((List.range' 1 14).map f).map Event.wx ++ [Event.call (f 15)] ++
      (if f 16 = .one then [Event.dstAnn] else []) ++ (if f 19 = .one then [Event.leapAnn] else []) ++
      (if f 20 = .one then [] else [Event.wTmark]) := by
  have hsplit : List.range' 0 21 = [0] ++ List.range' 1 14 ++ [15] ++ [16] ++ [17, 18] ++ [19] ++ [20] := rfl
  have hcall : bitEvents f 15 = [.call (f 15)] := rfl
  have hflags := flatMap_bitEvents_of_silent f (l := [17, 18]) (by decide)
  simp only [hsplit, List.flatMap_append, List.flatMap_singleton, bitEvents_start,
    flatMap_bitEvents_weather, hcall, bitEvents_dstann, hflags, bitEvents_leapann, bitEvents_tmark, List.append_nil]

end

/-- The bits of `l`, the first of them at position `lo`. -/
def bitsFrom (lo : Nat) (l : List Trit) (n : Nat) : Trit := bitAt l (n - lo)

theorem map_bitsFrom {lo a n : Nat} {l : List Trit} (h : a + n ≤ l.length) :
    (List.range' (lo + a) n).map (bitsFrom lo l) = slice l a n := by
  rw [← map_bitAt l a n h]
  refine List.ext_getElem (by simp) fun i _ _ => ?_
  simp [bitsFrom, Nat.add_assoc]

/-- A stretch of the bits, at its positions. -/
theorem map_bitsFrom_middle (lo : Nat) {a n : Nat} {pre mid : List Trit} (post : List Trit) (hpre : pre.length = a)
    (hmid : mid.length = n) : (List.range' (lo + a) n).map (bitsFrom lo (pre ++ mid ++ post)) = mid := by
  subst hpre hmid
  rw [map_bitsFrom (by simp)]
  simp [slice]

/-- A run of the bit tokens `l` from the cursor `lo`. -/
theorem runSteps_bitsFrom {lo n : Nat} {l : List Trit} (hlen : l.length = n) {s : State} {rest : List PortIn}
    (hcur : s.cursor.val = lo) (hn : lo + n ≤ 60) (hin : s.input = bitCycles l ++ rest)
    (hreads : ∀ c ∈ List.range' lo n, ∀ x ∈ cellsRead (.bit .zero) c, lo ≤ cellPosition x) :
    ∃ t : State, runSteps n s = .next t ∧ t.cursor.val = lo + n ∧ t.input = rest ∧
      takesBits (bitsFrom lo l) lo (lo + n) s t ∧
      t.output = s.output ++ (List.range' lo n).flatMap (bitEvents (bitsFrom lo l)) := by
  refine runSteps_bits _ lo n hcur hn ?_ hreads
  have hbits : (List.range' lo n).map (bitsFrom lo l) = l := by
    simpa using map_bitsFrom_middle lo (a := 0) (pre := []) [] rfl hlen
  rw [hin, hbits]

/-- A field and its parity bit, from the field's first position: the field's buffer holds its bits, and those are
judged. -/
theorem runSteps_field {b : Buf} {w : Event}
    (hevents : ∀ f, (List.range' (bufBase b) (bufLen b + 1)).flatMap (bitEvents f) =
      parityEvents ((List.range' (bufBase b) (bufLen b)).map f) (f (bufBase b + bufLen b)) w)
    (hreads : ∀ c ∈ List.range' (bufBase b) (bufLen b + 1), ∀ x ∈ cellsRead (.bit .zero) c, bufBase b ≤ cellPosition x)
    {bits : List Trit} (hlen : bits.length = bufLen b) {v : Trit} {s : State} {rest : List PortIn}
    (hcur : s.cursor.val = bufBase b) (hin : s.input = bitCycles (bits ++ [v]) ++ rest) :
    ∃ t : State, runSteps (bufLen b + 1) s = .next t ∧ t.cursor.val = bufBase b + (bufLen b + 1) ∧ t.buf b = bits ∧
      t.input = rest ∧ t.output = s.output ++ parityEvents bits v w := by
  have hn : bufBase b + (bufLen b + 1) ≤ 60 := by cases b <;> decide
  obtain ⟨t, hrun, hcur', hrest, htaken, hout⟩ := runSteps_bitsFrom (by simp [hlen]) hcur hn hin hreads
  have hbits : (List.range' (bufBase b) (bufLen b)).map (bitsFrom (bufBase b) (bits ++ [v])) = bits :=
    map_bitsFrom_middle (bufBase b) (pre := []) [v] rfl hlen
  have hparity : bitsFrom (bufBase b) (bits ++ [v]) (bufBase b + bufLen b) = v := by simp [bitsFrom, bitAt, ← hlen]
  rw [hevents, hbits, hparity] at hout
  exact ⟨t, hrun, hcur', (buf_eq_of_takesBits htaken le_rfl (by omega)).trans hbits, hrest, hout⟩

/-- PMIN's arm (R121). -/
theorem exec_pmin (v : Trit) (s : State) : exec (.pmin v) s = .next { s with
    cursor := nextCursor s.cursor
    output := s.output ++ parityEvents s.min.toList v .wParMin } := by
  rw [← eventIf_parityFail]
  rfl

/-- PHOUR's arm (R123). -/
theorem exec_phour (v : Trit) (s : State) : exec (.phour v) s = .next { s with
    cursor := nextCursor s.cursor
    output := s.output ++ parityEvents s.hour.toList v .wParHour } := by
  rw [← eventIf_parityFail]
  rfl

/-- PDATE's arm (R136). -/
theorem exec_pdate (v : Trit) (s : State) : exec (.pdate v) s = .next { s with
    cursor := nextCursor s.cursor
    output := s.output ++
      parityEvents (s.day.toList ++ s.wday.toList ++ s.mon.toList ++ s.year.toList) v .wParDate } := by
  rw [← eventIf_parityFail]
  rfl

/-- Settles O24: PMIN's row and arm, and the run of positions 21 to 28. -/
theorem minuteParityIsChecked : Obligations.MinuteParityIsChecked := by
  refine ⟨fun v s => ⟨rfl, exec_pmin v s⟩, fun s bits v rest hcur hin => ?_⟩
  obtain ⟨t, hrun, hcur', hbuf, hrest, hout⟩ :=
    runSteps_field (b := .min) flatMap_bitEvents_minute (by decide) (by simp [bufLen]) hcur hin
  exact ⟨t, hrun, hcur', Vector.toList_inj.mp hbuf, hrest, hout⟩

/-- Settles O26: PHOUR's row and arm, and the run of positions 29 to 35. -/
theorem hourParityIsChecked : Obligations.HourParityIsChecked := by
  refine ⟨fun v s => ⟨rfl, exec_phour v s⟩, fun s bits v rest hcur hin => ?_⟩
  obtain ⟨t, hrun, hcur', hbuf, hrest, hout⟩ :=
    runSteps_field (b := .hour) flatMap_bitEvents_hour (by decide) (by simp [bufLen]) hcur hin
  exact ⟨t, hrun, hcur', Vector.toList_inj.mp hbuf, hrest, hout⟩

/-- The 22 date bits and the parity bit, taken apart at the positions of their buffers (D12). -/
theorem map_bitsFrom_date (d : Vector Trit 6) (w : Vector Trit 3) (m : Vector Trit 5) (y : Vector Trit 8) (v : Trit) :
    let f := bitsFrom 36 (d.toList ++ w.toList ++ m.toList ++ y.toList ++ [v])
    (List.range' 36 6).map f = d.toList ∧ (List.range' 42 3).map f = w.toList ∧ (List.range' 45 5).map f = m.toList ∧
      (List.range' 50 8).map f = y.toList ∧ f 58 = v := by
  have hday := map_bitsFrom_middle 36 (pre := []) (mid := d.toList)
    (w.toList ++ m.toList ++ y.toList ++ [v]) (a := 0) (n := 6) rfl (by simp)
  have hwday := map_bitsFrom_middle 36 (pre := d.toList) (mid := w.toList)
    (m.toList ++ y.toList ++ [v]) (a := 6) (n := 3) (by simp) (by simp)
  have hmon := map_bitsFrom_middle 36 (pre := d.toList ++ w.toList) (mid := m.toList)
    (y.toList ++ [v]) (a := 9) (n := 5) (by simp) (by simp)
  have hyear := map_bitsFrom_middle 36 (pre := d.toList ++ w.toList ++ m.toList) (mid := y.toList)
    [v] (a := 14) (n := 8) (by simp) (by simp)
  have hparity := map_bitsFrom_middle 36 (pre := d.toList ++ w.toList ++ m.toList ++ y.toList) (mid := [v])
    [] (a := 22) (n := 1) (by simp) rfl
  simp only [List.append_assoc, List.nil_append, List.append_nil] at *
  exact ⟨hday, hwday, hmon, hyear, List.singleton_inj.mp hparity⟩

/-- Settles O29: PDATE's row and arm, and the run of positions 36 to 58. -/
theorem dateParityIsChecked : Obligations.DateParityIsChecked := by
  refine ⟨fun v s => ⟨rfl, exec_pdate v s⟩, fun s d w m y v rest hcur hin => ?_⟩
  obtain ⟨t, hrun, hcur', hrest, htaken, hout⟩ := runSteps_bitsFrom (n := 23) (by simp) hcur (by decide) hin (by decide)
  obtain ⟨hd, hw, hm, hy, hparity⟩ := map_bitsFrom_date d w m y v
  generalize bitsFrom 36 (d.toList ++ w.toList ++ m.toList ++ y.toList ++ [v]) = f at *
  have hdate : (List.range' 36 22).map f = d.toList ++ w.toList ++ m.toList ++ y.toList := by
    rw [← hd, ← hw, ← hm, ← hy]
    rfl
  rw [flatMap_bitEvents_date, hw, hdate, hparity, ← List.append_assoc] at hout
  have hbuf : ∀ b, 36 ≤ bufBase b → t.buf b = (List.range' (bufBase b) (bufLen b)).map f := fun b hb =>
    buf_eq_of_takesBits htaken hb (by cases b <;> decide)
  exact ⟨t, hrun, hcur', Vector.toList_inj.mp ((hbuf .day le_rfl).trans hd),
    Vector.toList_inj.mp ((hbuf .wday (by decide)).trans hw), Vector.toList_inj.mp ((hbuf .mon (by decide)).trans hm),
    Vector.toList_inj.mp ((hbuf .year (by decide)).trans hy), hrest, hout⟩

end Sys2Proof.Proofs
end

section
/-! PROOFS. The whole minute of 59 bit tokens and its marker (spec 44_minute_boundary.md consequences,
60_exceptions.md R174 to R178). -/

namespace Sys2Proof.Proofs

open Sys2Proof.Machine Sys2Proof.Safety Sys2Proof.Laws

/-- R41: every cell has its position among the 59 bits of the minute. -/
theorem cellPosition_lt : ∀ x ∈ allCells, cellPosition x < 59 := by decide

theorem mem_allCells_of_reads_mark : ∀ x ∈ reads .mark, x ∈ allCells := by decide

/-- Once the whole minute is taken, the marker sees the minute's bits and nothing older. -/
theorem emitted_mark_eq_painted {f : Nat → Trit} {s t : State} (h : takesBits f 0 59 s t) :
    emitted .mark t = emitted .mark (painted f) := by
  refine emitted_congr fun x hx _ => ?_
  have hcell := mem_allCells_of_reads_mark x hx
  rw [h x hcell, readCell_painted f hcell, if_pos ⟨Nat.zero_le _, cellPosition_lt x hcell⟩]

/-- A stretch of the 59 bits, by position. -/
theorem map_bitAt_minute {bits : List Trit} (hlen : bits.length = 59) (lo n : Nat) (h : lo + n ≤ 59) :
    (List.range' lo n).map (bitAt bits) = slice bits lo n :=
  map_bitAt bits lo n (hlen ▸ h)

/-- MARK's events on the minute's bits (R150, R152). -/
theorem emitted_mark_painted {bits : List Trit} (hlen : bits.length = 59) :
    emitted .mark (painted (bitAt bits)) = tzEvents (bitAt bits 17) (bitAt bits 18) ++ [.frame (minuteFrame bits)] := by
  have hslice := map_bitAt_minute hlen
  have hframe : (painted (bitAt bits)).frameResult (tzOffsetOf (bitAt bits 17) (bitAt bits 18)) = minuteFrame bits := by
    simp only [State.frameResult, buf_painted, bufBase, bufLen, minuteFrame, hslice 50 8 (by decide),
      hslice 45 5 (by decide), hslice 36 6 (by decide), hslice 29 6 (by decide), hslice 21 7 (by decide)]
  rw [emitted_mark, ← hframe]
  rfl

/-- The events of the 59 positions and the marker are those the statements write as a function of the bits. -/
theorem flatMap_bitEvents_append_mark {bits : List Trit} (hlen : bits.length = 59) :
    (List.range' 0 59).flatMap (bitEvents (bitAt bits)) ++ emitted .mark (painted (bitAt bits)) = minuteEvents bits := by
  have hsplit : List.range' 0 59 = List.range' 0 21 ++ List.range' 21 8 ++ List.range' 29 7 ++ List.range' 36 23 := rfl
  have hslice := map_bitAt_minute hlen
  rw [hsplit, emitted_mark_painted hlen, minuteEvents]
  simp only [List.flatMap_append, flatMap_bitEvents_status, flatMap_bitEvents_minute, flatMap_bitEvents_hour,
    flatMap_bitEvents_date, List.append_assoc]
  rw [hslice 1 14 (by decide), hslice 21 7 (by decide), hslice 29 6 (by decide), hslice 42 3 (by decide),
    hslice 36 22 (by decide)]

/-- Settles O45: the run of all 59 positions, then the marker. -/
theorem wholeMinuteEventsAreTheBitsAlone : Obligations.WholeMinuteEventsAreTheBitsAlone := by
  intro bits s rest hcur hin
  have hlen : bits.toList.length = 59 := bits.length_toList
  have hbits : (List.range' 0 59).map (bitAt bits.toList) = bits.toList := by
    rw [map_bitAt_minute hlen 0 59 le_rfl]
    simp [slice]
  obtain ⟨u, hrun, -, hin', htaken, hout⟩ := runSteps_bits (bitAt bits.toList) 0 59 hcur (by decide)
    (by rwa [hbits]) fun _ _ _ _ => Nat.zero_le _
  obtain ⟨t, h, hrest, hhome, hout', -⟩ := step_mark_spec hin'
  refine ⟨t, (runSteps_add 59 1 s u hrun).trans (runSteps_succ 0 u t h), congrArg Fin.val hhome, hrest, ?_⟩
  rw [hout', hout, List.append_assoc, emitted_mark_eq_painted htaken, flatMap_bitEvents_append_mark hlen]

/-- One more bit of a stretch. -/
theorem slice_succ {bits : List Trit} {lo n : Nat} (h : lo + n < bits.length) :
    slice bits lo (n + 1) = slice bits lo n ++ [bitAt bits (lo + n)] := by
  rw [← map_bitAt bits lo (n + 1) h, ← map_bitAt bits lo n h.le, List.range'_1_concat, List.map_append,
    List.map_singleton]

/-- Even parity over a field and its valid parity bit passes the check (R85). -/
theorem parityEvents_eq_nil_of_even {cells : List Trit} {p : Trit} (w : Event) (hp : p ≠ .invalid)
    (heven : Even ((cells ++ [p]).count .one)) : parityEvents cells p w = [] := by
  rw [Nat.even_iff, List.count_append] at heven
  refine if_neg ?_
  cases p with
  | zero => simpa using heven
  | one =>
    rw [List.count_singleton_self] at heven
    rw [if_neg (by decide)]
    omega
  | invalid => exact absurd rfl hp

theorem tzEvents_eq_nil_of_valid {a b : Trit} (h : (a = .one ∧ b = .zero) ∨ (a = .zero ∧ b = .one)) :
    tzEvents a b = [] := if_pos h

theorem bitAt_toList {n : Nat} (bits : Vector Trit n) {i : Nat} (hi : i < n) : bitAt bits.toList i = bits[i] := by
  simp [bitAt, hi]

/-- A conditional announcement is of its event's class. -/
theorem forall_mem_ite_singleton {p : Prop} [Decidable p] {a : Event} {k : EventClass} (ha : a.cls = k) :
    ∀ e ∈ (if p then [a] else []), e.cls = k := by
  split_ifs
  · simpa using ha
  · nofun

/-- The events of a minute without a warning: the frame comes last, and all others are informational. -/
theorem minuteEvents_of_valid {bits : List Trit} (hstart : bitAt bits 0 = .zero) (htmark : bitAt bits 20 = .one)
    (hmin : parityEvents (slice bits 21 7) (bitAt bits 28) .wParMin = [])
    (hhour : parityEvents (slice bits 29 6) (bitAt bits 35) .wParHour = [])
    (hdate : parityEvents (slice bits 36 22) (bitAt bits 58) .wParDate = [])
    (htz : tzEvents (bitAt bits 17) (bitAt bits 18) = []) :
    ∃ es, minuteEvents bits = es ++ [.frame (minuteFrame bits)] ∧ ∀ e ∈ es, e.cls = .informational := by
  refine ⟨_, rfl, ?_⟩
  rw [hmin, hhour, hdate, htz, if_pos hstart, if_pos htmark]
  simp only [List.nil_append, List.append_nil, List.forall_mem_append, List.forall_mem_map, List.forall_mem_singleton]
  exact ⟨⟨⟨⟨fun _ _ => rfl, rfl⟩, forall_mem_ite_singleton rfl⟩, forall_mem_ite_singleton rfl⟩, rfl⟩

/-- Settles O46: the whole minute's events (O45), where each warning is ruled out by its own hypothesis. -/
theorem validMinuteGivesItsFrameWithoutWarning : Obligations.ValidMinuteGivesItsFrameWithoutWarning := by
  intro bits s rest hcur hin hstart htmark hmin hpmin hhour hphour hdate hpdate htz
  obtain ⟨t, hrun, -, -, hout⟩ := wholeMinuteEventsAreTheBitsAlone bits s rest hcur hin
  have hlen : bits.toList.length = 59 := bits.length_toList
  simp only [← bitAt_toList] at hstart htmark hpmin hphour hpdate htz
  rw [slice_succ (by rw [hlen]; decide)] at hmin hhour hdate
  obtain ⟨es, hevents, hinfo⟩ := minuteEvents_of_valid hstart htmark (parityEvents_eq_nil_of_even _ hpmin hmin)
    (parityEvents_eq_nil_of_even _ hphour hhour) (parityEvents_eq_nil_of_even _ hpdate hdate)
    (tzEvents_eq_nil_of_valid htz)
  exact ⟨t, es, hrun, by rw [hout, hevents, List.append_assoc], hinfo⟩

end Sys2Proof.Proofs
end

section
/-! PROOFS. The block with its line source (spec 30_encoding.md R72, 60_exceptions.md R176, R178). -/

namespace Sys2Proof.Proofs

open Sys2Proof.Machine Sys2Proof.Safety Sys2Proof.Laws

/-- R72, R176: the lines that the source reports are those of an InvalidBit. -/
theorem sourceReports_eq (line : List Char) : sourceReports line =
    if line = [] ∨ line.head? = some '0' ∨ line.head? = some '1' then [] else [.invalidLine] := by
  cases line with
  | nil => rfl
  | cons c rest =>
    by_cases h0 : c = '0'
    · subst h0
      rfl
    by_cases h1 : c = '1'
    · subst h1
      rfl
    have hnotice : lineNotice (c :: rest) = true := by rw [lineNotice, lineToken_cons_of_ne h0 h1]; rfl
    simp [sourceReports, hnotice, h0, h1]

/-- One line through the system is one step of its block, with the notice before that step's events. -/
theorem system_step_spec {y : System} {line : List Char} {rest : List (List Char)} (hl : y.lines = line :: rest) :
    ∃ (t : State) (es : List Event), step (y.fed line) = .next t ∧ t.output = y.block.output ++ es ∧
      t.input = y.block.input ∧ y.step = .next
        { block := t, lines := rest, reports := y.reports ++ sourceReports line ++ es.map .block } := by
  obtain ⟨t, h, hin, -⟩ := step_token_spec (fed_input y line) (rst_ofToken _) (token_ofToken _)
  exact ⟨t, (y.fed line).stepEvents, h, output_of_step h, hin, system_step_cons y line rest t hl h⟩

/-- Settles O49: with no line the system rests; with one, `system_step_spec`. -/
theorem invalidLineNoticePrecedesTheBlocksEvents : Obligations.InvalidLineNoticePrecedesTheBlocksEvents := by
  refine ⟨system_step_nil, fun y line rest hl => ?_⟩
  rw [← sourceReports_eq]
  exact system_step_spec hl

theorem consume_self {s : State} {rest : List PortIn} (h : s.input = rest) : s.consume rest = s := by
  subst h
  rfl

/-- One line adds one notice if it is of an InvalidBit, and the block's events add none. -/
theorem count_invalidLine_line (l : List Char) (es : List Event) :
    (sourceReports l ++ es.map Report.block).count Report.invalidLine = if lineToken l = .bit .invalid then 1 else 0 := by
  simp [count_invalidLine_sourceReports, lineNotice]

/-- The reports of a whole run: the block alone, on the capture's tokens, reaches the same state with the same
events, and the notices are one per InvalidBit line, whatever was reported before. -/
theorem system_run_spec (lines : List (List Char)) {s : State} (hin : s.input = []) (r : List Report) :
    ∃ (t : State) (new : List Report),
      System.run lines.length { block := s, lines := lines, reports := r } =
        .next { block := t, lines := [], reports := r ++ new } ∧
      runSteps lines.length { s with input := captureInput lines } = .next t ∧
      t.output = s.output ++ new.filterMap Report.event? ∧
      new.count .invalidLine = (lines.filter fun l => lineToken l = .bit .invalid).length := by
  induction lines generalizing s r with
  | nil => exact ⟨s, [], by simp, congrArg Host.Outcome.next (consume_self hin), by simp, rfl⟩
  | cons l ls ih =>
    obtain ⟨u, es, hout, hany⟩ := step_ofToken_any_rest s (lineToken l)
    have hfed : step (System.fed ⟨s, l :: ls, r⟩ l) = .next (u.consume s.input) := hany s.input
    have hsys := system_step_cons ⟨s, l :: ls, r⟩ l ls _ rfl hfed
    rw [stepEvents_of_next hfed hout, List.append_assoc] at hsys
    obtain ⟨t, new, hsystem, hblock, hout', hcount⟩ :=
      ih (s := u.consume s.input) hin (r ++ (sourceReports l ++ es.map .block))
    refine ⟨t, sourceReports l ++ es.map .block ++ new, ?_, ?_, ?_, ?_⟩
    · rw [← List.append_assoc]
      exact (system_run_succ _ _ _ hsys).trans hsystem
    · exact (runSteps_succ _ _ _ (hany (captureInput ls))).trans hblock
    · rw [hout']
      simp [hout]
    · rw [List.count_append, count_invalidLine_line, hcount, List.filter_cons]
      by_cases hl : lineToken l = .bit .invalid
      · simp [hl, Nat.add_comm]
      · simp [hl]

/-- Settles O50: `system_run_spec` before anything is reported. -/
theorem noticesAreOnePerInvalidLineAndLeaveTheBlockAlone :
    Obligations.NoticesAreOnePerInvalidLineAndLeaveTheBlockAlone := by
  intro lines s hin
  obtain ⟨t, new, hsystem, hblock, hout, hcount⟩ := system_run_spec lines hin []
  exact ⟨_, t, hsystem, hblock, rfl, rfl, hout, hcount⟩

end Sys2Proof.Proofs
end
